-- ==== Sys2Proof/Word.lean ====
section
/-! DEFINITION. The words of the L8: bytes, and the 16, 32, 64 and 512 bit words that its tables are
laid out in (R6: bit 0 is the least significant bit). -/

namespace Sys2Proof

/-- One byte of memory, of a register or of a message. -/
abbrev Byte := BitVec 8
/-- A 16-bit field (R202, R223). -/
abbrev W16 := BitVec 16
/-- A 32-bit register or descriptor word (R557). -/
abbrev W32 := BitVec 32
/-- A 64-bit word: a time base value, a counter, a SIGNAL word (R49, R285). -/
abbrev W64 := BitVec 64
/-- A 64-byte block: a submission entry, an extension block, a slot descriptor (R194, R210, R121). -/
abbrev Block := BitVec 512

end Sys2Proof
end

