-- ==== Sys2Proof/Syntax.lean ====
section
/-! DEFINITION. The commands of the block: one constructor of `Instr` per row of spec/opcode_table.json,
with the operands the row needs. An operand is what comes from outside the device (a doorbell value, a
message, a pin, a sensor reading), or a choice the manual leaves to a unit (which core a CSP takes, R27). -/

namespace Sys2Proof

/-- Where a register access comes from (R556). `secp` is firmware on the SECP, which alone writes SEC_LOCK. -/
inductive Origin
  | secp | firmware | bar4 | sideband | jtag
deriving DecidableEq, Repr

/-- The eleven firmware processors (R464). -/
inductive Proc
  | secp | pmp | dmp
  | csp (n : Fin 8)
deriving DecidableEq, Repr

/-- The regulator requests of the power-up sequence (R416) and of VDD_CORE steps (R440), by rail. -/
inductive Rail
  | sram | core | hbmVpp | hbmVdd | hbmVddq | runA | runH | pcieA | pcieH
deriving DecidableEq, Repr

/-- The voted fields of the *Voted fields* table (R569). -/
inductive VotedField
  | resetCluster | resetWarm | resetCold | mode | debugLock | flashLock
  | linkEnable (n : Fin 24) | linkAllowX2 (n : Fin 24)
  | clusterMs | coreMs | prunerMs | runnerMs | swap | pinEn
deriving DecidableEq, Repr

/-- The reset units of R500. -/
inductive ResetUnit
  | core (c : Fin 128) | cluster (n : Fin 8) | port (n : Fin 24) | pruner (n : Fin 8)
  | proc (p : Proc) | warm | cold
deriving DecidableEq, Repr

/-- What a second fault strikes (R505, the rows of *Second faults*). -/
inductive FaultSite
  | machinery
  | unit (u : ResetUnit)
  | fatal (cause : Nat)
deriving DecidableEq, Repr

/-- The blocks of the register window that hold a wide mailbox (R563, R564). -/
inductive WideBlock
  | top | pwr | sec | sun | frost | perf | pcie
  | hbm (n : Fin 8) | link (n : Fin 24)
deriving DecidableEq, Repr

/-- The three PERF filter registers (R540). -/
inductive PerfReg
  | filter | tag | tagOp
deriving DecidableEq, Repr

/-- The wake sources of R451. -/
inductive WakeSource
  | pin (n : Fin 4) | pcie | runner (n : Fin 24)
deriving DecidableEq, Repr

/-- The functions with a held enable (R462). -/
inductive HeldFunction
  | clusterSwitch
  | runner (n : Fin 24)
  | rake (n : Fin 8)
  | digestUnit (n : Fin 8)
  | prunerSweep (n : Fin 8)
  | runnerRails | pcieRails
deriving DecidableEq, Repr

/-- How a suspect's replay ended (R504). -/
inductive ReplayEnd
  | completed | elapsed | hang
deriving DecidableEq, Repr

/-- The causes of a crash dump header (R483). -/
inductive CrashCause
  | exception | silent | assertion | inHandler
deriving DecidableEq, Repr

/-- The sources of an undervoltage-fatal event (R457). -/
inductive UnderCause
  | coreBelowFloor | sramFault
deriving DecidableEq, Repr

/-- The readings a stage clear needs (R456): whether the 20 mV margin has held for 1 ms. -/
abbrev MarginHeld := Bool

/-- One Belaeri message as its header flit and data flits carry it (R303 and the *Message header flit body* table). -/
structure Msg where
  vc     : Nat
  op     : Nat
  dst    : BitVec 12
  src    : BitVec 12
  job    : W16
  addr   : BitVec 48
  hops   : Nat
  tag    : W16
  opword : W32
  poison : Block
  data   : List Byte
deriving DecidableEq, Repr

/-- One event record of a control flit (the *Link events* table): code and the fields the codes use. -/
structure LinkEvent where
  code  : Nat
  bytes : List Byte
deriving DecidableEq, Repr

/-- The body of a control flit (R301, R303). -/
structure Control where
  nak       : Bool
  ackSeq    : W32
  shared    : W32
  vcCredit  : List W32
  events    : List LinkEvent
deriving DecidableEq, Repr

/-- One member's partials of a trust-ratio norm exchange (R373): W and U as FP64 bits, and the two marks. -/
structure NormPart where
  chip      : BitVec 12
  w         : W64
  u         : W64
  poisoned  : Bool
  nonfinite : Bool
deriving DecidableEq, Repr

/-- Where a memory error is found that no code corrects: in a home (an HBM sector, or a word of a core's or cluster's memory, R247, R255),
in a copy in a cluster cache, in the tile of a pass in a stationary-operand buffer (R255), in the tags of a cluster cache, of one copy or
of both (R256). -/
inductive PoisonSite
  | memory (addr : BitVec 48)
  | cache (n : Fin 8) (addr : BitVec 48)
  | stationary (core : Fin 128) (pass byte : Nat)
  | tag (n : Fin 8) (both : Bool)
deriving DecidableEq, Repr

/-- Stall beats of one operation by cause (R109): FEED, DRAIN, STATIONARY, STREAM_WAIT. -/
structure Stalls where
  feed       : Nat
  drain      : Nat
  stationary : Nat
  stream     : Nat
deriving DecidableEq, Repr

/-- The end of a Trug pass (R132): its number, and the stalls of its array. -/
structure PassEnd where
  pass   : Nat
  stalls : Stalls
deriving DecidableEq, Repr

/-- The state a boot ROM fault handler dumps (R483): cause registers and the register, CSR and stack bytes. -/
structure DumpBody where
  mcause : W64
  mepc   : W64
  mtval  : W64
  body   : List Byte
deriving DecidableEq, Repr

/-- The commands: one constructor per row of the table, in the table's order. -/
inductive Instr
  -- submission-ring opcodes: issue of the next entry of context `c`; `pick` is the CSP's core (R27)
  | nop (c : Fin 64)
  | fence (c : Fin 64)
  | flushRange (c : Fin 64)
  | invalRange (c : Fin 64)
  | signal (c : Fin 64)
  | wait (c : Fin 64)
  | remoteFence (c : Fin 64)
  | frost (c : Fin 64)
  | matmul (c : Fin 64) (pick : Fin 128)
  | matmulDd (c : Fin 64) (pick : Fin 128)
  | accLoad (c : Fin 64) (pick : Fin 128)
  | accStore (c : Fin 64) (pick : Fin 128)
  | accRelease (c : Fin 64)
  | vec (c : Fin 64) (pick : Fin 128)
  | dma (c : Fin 64) (pick : Fin 128)
  | slice (c : Fin 64) (pick : Fin 128)
  | trugSlotSet (c : Fin 64)
  | trugPost (c : Fin 64)
  | allReduce (c : Fin 64)
  | reduceScatter (c : Fin 64)
  | allGather (c : Fin 64)
  | broadcast (c : Fin 64)
  | pruneUpdate (c : Fin 64)
  | sweep (c : Fin 64)
  | rake (c : Fin 64) (cluster : Fin 8)
  -- issue and completion events of the engines
  | issueResume (c : Fin 64)
  | freeCoreGrant (core : Fin 128)
  | arrayOpDone (c : Fin 64) (idx : W32) (stalls : Stalls)
  | epilogueDone (c : Fin 64) (idx : W32)
  | vectorDone (c : Fin 64) (idx : W32)
  | dmaDone (c : Fin 64) (idx : W32)
  | hostReadCompletion (c : Fin 64) (idx : W32) (data : List Byte) (ep : Bool)
  | prunerShareDone (stack : Fin 8)
  | normExchangeDone (c : Fin 64) (idx : W32) (parts : List NormPart)
  | rakeDone (c : Fin 64) (idx : W32)
  | digestDone (c : Fin 64) (idx : W32)
  | trugDeadline (cluster : Fin 8) (pick : Fin 128)
  | trugPassDone (pass : PassEnd)
  -- the host port
  | sqTail (c : Fin 64) (v : W32)
  | cqHead (c : Fin 64) (v : W32)
  | streamGrant (c : Fin 64) (stream : Fin 8) (v : W32)
  | bar2Read (off : Nat) (len : Nat)
  | bar2Write (off : Nat) (data : List Byte) (ep : Bool)
  | functionLevelReset
  | perstAssert
  | perstDeassert
  | pcieLinkDown
  | pcieLinkUp (rate : Fin 16) (width : Fin 32)
  -- the management mailbox; `seq` is the host's SEQ of the request header
  | getStatus (seq : W32)
  | logRead (seq : W32) (index : W32)
  | recoverWrite (seq : W32) (off : W32) (data : List Byte)
  | hello (seq : W32) (major minor : Byte)
  | bar2Priv (seq : W32) (on : Byte)
  | ctxCreate (seq : W32) (rec : Block)
  | ctxDestroy (seq : W32) (c : Byte)
  | ctxAbort (seq : W32) (c : Byte)
  | regionSet (seq : W32) (c : Byte) (index : Byte) (entry : BitVec 128) (timeout : W32)
  | regionApply (c : Fin 64)
  | regionSetTimeout (c : Fin 64)
  | jobLoad (seq : W32) (addr : BitVec 48) (len : W32)
  | graftStage (seq : W32) (addr : BitVec 48) (len : W32)
  | graftWriteDone
  | graftActivate (seq : W32)
  | graftStatus (seq : W32)
  | dumpRead (seq : W32) (dump : W32) (host : W64) (len : W32)
  | attest (seq : W32) (nonce : BitVec 256) (form : Byte) (host : W64) (len : W32)
  -- registers with behaviour of their own
  | topResetCold (o : Origin) (key : Byte)
  | topResetWarm (o : Origin) (key : Byte)
  | topResetCluster (o : Origin) (key : Byte) (clusters : BitVec 8)
  | cfgSwapRequest (o : Origin)
  | cfgSwapWithdraw (o : Origin)
  | cfgSwapPerform
  | pwrModeWrite (o : Origin) (v : W32)
  | dozeRequest (o : Origin)
  | restRequest (o : Origin)
  | activeRequest (o : Origin)
  | tripRestart (o : Origin)
  | linkEnable (o : Origin) (n : Fin 24)
  | linkDisable (o : Origin) (n : Fin 24)
  | linkRetrainRequest (o : Origin) (n : Fin 24)
  | frostStart (o : Origin)
  | frostThaw (o : Origin)
  | unpark (o : Origin)
  | wideSnap (o : Origin) (b : WideBlock)
  | wideDone (o : Origin) (b : WideBlock)
  | perfFilterWrite (o : Origin) (r : PerfReg) (v : W32)
  | pcieBar2BaseWrite (o : Origin) (v : W32)
  | registerWrite (o : Origin) (off : BitVec 26) (size : Nat) (v : W64)
  | smbusWrite (off : W32) (v : W32) (pecOk : Bool)
  | smbusRead (off : W32) (pecOk : Bool)
  | smbusAlertResponse
  | extest
  | extestPulse
  | extestTrain
  | idcode
  | testLogicReset
  -- start, power and temperature
  | pwrGoodRise (sbAddr : BitVec 3)
  | pwrGoodFall (lowNs : Nat)
  | powerUpStep
  | regulatorAck (r : Rail)
  | regulatorRetry (r : Rail)
  | pmbAlert
  | stage1Reached
  | stage2Reached (trainFailures : List (Fin 8 × Nat)) (selftestFails : List (Fin 128))
  | stage3Alone
  | coreSelftestFail (core : Fin 128)
  | timerefLost
  | timerefReturn
  | hbmrefLost
  | runrefLost (p : Fin 2)
  | runrefReturn (p : Fin 2)
  | thermalSample (readings : List (Fin 11 × Nat)) (hbmTemps : List (Fin 8 × Byte))
  | thermalLimitLower
  | thermalLimitRaise
  | thermalTrip
  | shedStageEnter (stage : Fin 8)
  | undervoltageWarning (r : Rail) (asserted : Bool)
  | shedStageClear (margin : MarginHeld)
  | undervoltageFatal (cause : UnderCause)
  | wake (src : WakeSource)
  | dozeEntryStep
  | drainAbandon
  | dozeExitStep
  | restEntryStep
  | shutdownComplete (f : HeldFunction)
  -- hangs, resets and recovery
  | coreHang (core : Fin 128)
  | clusterHang (n : Fin 8)
  | runnerHang (n : Fin 24)
  | prunerHang (n : Fin 8)
  | processorSilent (p : Proc) (dump : DumpBody)
  | burstGap (c : Fin 64) (idx : W32)
  | sundialSelfCheck (mismatch : Bool)
  | coreReset (core : Fin 128)
  | clusterReset (n : Fin 8)
  | portReset (n : Fin 24)
  | prunerReset (n : Fin 8)
  | deviceWarmReset (fatalCause : Nat)
  | deviceColdReset (fatalCause : Nat)
  | resetComplete (u : ResetUnit) (selftestFails : List (Fin 128))
  | resetWindowExpiry (u : ResetUnit)
  | secondFault (site : FaultSite)
  | suspectReplayEnd (n : Fin 8) (how : ReplayEnd)
  | processorCrash (p : Proc) (cause : CrashCause) (dump : DumpBody)
  | processorRestart (p : Proc) (digestOk : Bool)
  | frostIn
  | frostCutSettled
  | frostThawDone
  -- group time
  | syncInterval
  | holdoverEntry
  | syncParentReturn
  -- Runner links
  | receiveFlit (n : Fin 24) (flit : List Byte)
  | controlFlit (n : Fin 24) (ctl : Control)
  | replayTimeout (n : Fin 24)
  | ackTimer (n : Fin 24)
  | retrainDone (n : Fin 24) (lanes : BitVec 4)
  | signalDetected (n : Fin 24)
  | trainDone (n : Fin 24) (lanes : BitVec 4)
  | alignDone (n : Fin 24)
  | laneFail (n : Fin 24) (lane : Fin 4)
  | lossOfSignal (n : Fin 24)
  | resetNotice (n : Fin 24)
  | linkDownRestart (n : Fin 24)
  | wakeFrame (n : Fin 24)
  | forwardHoldTimeout (n : Fin 24)
  -- messages received whole on a link
  | write (n : Fin 24) (m : Msg)
  | writeAck (n : Fin 24) (m : Msg)
  | readReq (n : Fin 24) (m : Msg)
  | readResp (n : Fin 24) (m : Msg)
  | remoteSignal (n : Fin 24) (m : Msg)
  | signalAck (n : Fin 24) (m : Msg)
  | grantReq (n : Fin 24) (m : Msg)
  | grantResp (n : Fin 24) (m : Msg)
  | grantRelease (n : Fin 24) (m : Msg)
  | routeErr (n : Fin 24) (m : Msg)
  | grantTimeout (c : Fin 64) (idx : W32)
  | coll (n : Fin 24) (m : Msg)
  | collCheck (n : Fin 24) (m : Msg)
  | collectiveTimeout (c : Fin 64) (idx : W32)
  -- group control
  | join (n : Fin 24) (m : Msg)
  | joinRetry
  | admitMsg (n : Fin 24) (m : Msg)
  | refuse (n : Fin 24) (m : Msg)
  | formed (n : Fin 24) (m : Msg)
  | job (n : Fin 24) (m : Msg)
  | plan (n : Fin 24) (m : Msg)
  | planCopyResume
  | planRecordRead (c : Fin 64)
  | heartbeat (n : Fin 24) (m : Msg)
  | heartbeatInterval
  | mgrBeat (n : Fin 24) (m : Msg)
  | report (n : Fin 24) (m : Msg)
  | withdraw (n : Fin 24) (m : Msg)
  | discard (n : Fin 24) (m : Msg)
  | thaw (n : Fin 24) (m : Msg)
  | commit (n : Fin 24) (m : Msg)
  | takeover (n : Fin 24) (m : Msg)
  | memberLost (chip : BitVec 12)
  | deputyTakeover
  | managerLost
  | readyTimeout (chip : BitVec 12)
  -- peer authentication
  | challenge (n : Fin 24) (m : Msg)
  | response (n : Fin 24) (m : Msg)
  | verdict (n : Fin 24) (m : Msg)
  | verdictRepeat (n : Fin 24)
  -- graft
  | graftVerifyDone
  | graftHandover
  | graftReadyTimeout
  | graftTrialEnd
  | graftDeferEnd
  -- HBM, flags, votes and the rest
  | patrolScrub (stack : Fin 8) (err : List (Fin 68 × Byte)) (inner : Fin 3)
  | ecsReadout (stack : Fin 8) (count : Nat) (newEntry : Bool)
  | sectorPoisoned (addr : PoisonSite)
  | waitPoll (c : Fin 64) (idx : W32)
  | waitTimeout (c : Fin 64) (idx : W32)
  | voteScrub
  | voteUpset (f : VotedField) (flip0 flip1 flip2 : W16)
  | configurationRequest (bar2 : Option (Bool × Fin 10))
  | mbxGo (o : Origin)
  | unknownOpcode (c : Fin 64)
  | poisonedSubmissionEntry (c : Fin 64)
  | registerRead (o : Origin) (off : BitVec 26) (size : Nat)
  | rangeOperationDone (c : Fin 64) (idx : W32)
  | accTransferDone (c : Fin 64) (idx : W32)
  | graftHandoverResume
  | reqStall
deriving DecidableEq, Repr

end Sys2Proof
end

