-- ==== Sys2Proof/Decode.lean ====
section
/-! DEFINITION. Words to commands. The block takes commands, not instruction words: spec/opcode_table.json
gives no row any bits, so no word spells a command (the block has no instruction decoder). -/

namespace Sys2Proof

/-- The command a table word spells: none, since no row of the table has bits. -/
def decodeTableWord (_nbits _w : Nat) : Option Instr := none

end Sys2Proof
end

