-- ==== Sys2Proof/Config.lean ====
section
/-! DEFINITION. What the manual leaves open or to an implementation: constants without a body. Nothing in Lean
can evaluate one of them, so every statement about the machine holds whatever they are. -/

namespace Sys2Proof.Config

/-- A byte the manual does not fix (unspecified contents of memory, of a lost read, of a partial result), by the
model's count of such values (log entry 5). -/
opaque freeByte : Nat → Byte

/-- What a read of memory or the reception of a flit finds beside its data: errors corrected, severities (R243, R251, R255, R297), and
in how many beats an array forms products (R538), by the model's count of free values (log entries 67 and 70). -/
opaque readError : Nat → Nat

/-- The FP32 activation functions, fixed bit for bit by a function the manual does not give (R159, R174): by code,
on FP32 words; special values stand in the units that use them (log entry 6). -/
opaque act32 : Nat → W32 → W32
/-- EXP and LOG in FP64 (R174), which the manual fixes only by an error bound (log entry 6). -/
opaque exp64 : W64 → W64
opaque log64 : W64 → W64
/-- RECIP and RSQRT (R174), by compute format (true: FP64), on words of that format (log entry 6). -/
opaque recip : Bool → W64 → W64
opaque rsqrt : Bool → W64 → W64
/-- The cosine and power of the schedule engine (R368), on FP64 words (log entry 6). -/
opaque cos64 : W64 → W64
opaque pow64 : W64 → W64 → W64

/-- SHAKE256 cut to 64 bytes, over bytes, low byte first (R387, R517; log entry 7). -/
opaque shake256 : List Byte → Block
/-- ML-DSA-65 verification of a signature over a message under a public key (R517; log entry 7). -/
opaque mldsaVerify : (key msg sig : List Byte) → Bool
/-- ML-DSA-65 signing, hedged, with the identity key: message and the count of signatures made (R517; log entry 7). -/
opaque mldsaSign : List Byte → Nat → List Byte
/-- The identity public key that the PUF gives this part (R520; log entry 7). -/
opaque pufKey : List Byte
/-- Whether the PUF response can be corrected (R523; log entry 7). -/
opaque pufGood : Bool
/-- The digests in ROM: of the vendor root key (R518), and of all boot ROMs (R528; log entry 7). -/
opaque romRoot : Block
opaque romDigest : Block
/-- A fresh random value for a nonce (R531; log entry 7). -/
opaque nonce : Nat → BitVec 256

/-- The build identifier of an image in a crash dump's header, 16 bytes, by slot and processor (R483; log entry 6). -/
opaque buildId : Nat → Nat → Nat

/-- The manufacturer identity code of IDCODE, 11 bits, which the manual names without its value (R589). -/
opaque jedecId : Nat

/-- What a granule of the firmware reserve holds (R605): a context 0 to 63 whose region table or slot entries lie
there, 64 for state Ronon is using, anything else for a free granule or a dump (log entry 8). -/
opaque reserveUse : Nat → Nat

end Sys2Proof.Config
end

