-- ==== Sys2Proof/Machine/State.lean ====
section
/-! DEFINITION. The state of one L8: everything the manual gives the device, as plain data, with the queue
of waiting commands. Values a register assembles from units are held by the unit, once; a register read
puts them together (Machine/Registers.lean). Sparse contents are lists of key and value pairs in one
canonical form: keys strictly rising, no entry at the value an unlisted key reads as. -/

namespace Sys2Proof.Machine

/-- Why the machine stops.
`timeBaseEnd`: raised by `step` on an empty queue when the 64-bit time base is at its last value; R50 says it
never decreases, and no rule says what the next count would be. Safe: the machine stops. -/
inductive Fault
  | timeBaseEnd
deriving DecidableEq, Repr

/-- Why a command has no meaning.
`notModelled`: raised by an arm of `exec` that has no meaning yet. Safe: the machine stops. -/
inductive Refusal
  | notModelled (mnemonic : String)
deriving DecidableEq, Repr

/-- Device memory (R234): the bytes of HBM, cluster memories, core stores and accumulator tiles at their local
addresses, and the poisoned 32-byte granules by number (R249, R141). -/
structure Memory where
  cells  : List Host.Cell
  poison : List Nat
deriving DecidableEq, Repr

/-- One 32-byte granule of a cache line (R260, R249). -/
structure Granule where
  valid  : Bool
  dirty  : Bool
  poison : Bool
  data   : BitVec 256
deriving DecidableEq, Repr

/-- One 128-byte line of a cluster cache: where it sits (set, way), which line it holds, its four granules (R258). -/
structure CacheLine where
  set  : Nat
  way  : Nat
  line : Nat
  gran : List Granule
deriving DecidableEq, Repr

/-- A cluster cache: its lines, and the tree bits of each set's replacement (R258). -/
structure Cache where
  lines : List CacheLine
  plru  : List (Nat × BitVec 15)
deriving DecidableEq, Repr

/-- A region entry (R263): permission bits 0 VALID, 1 READ, 2 WRITE, 3 HOST, 4 REMOTE_READ, 5 REMOTE_WRITE. -/
structure Region where
  base  : BitVec 48
  limit : BitVec 48
  perm  : W16
deriving DecidableEq, Repr

/-- The kind of an open accumulation group (R140). -/
inductive GKind
  | fp32 | int32 | dd
deriving DecidableEq, Repr

/-- An open accumulation group (R147): its id, kind and tile list. -/
structure Group where
  id    : Nat
  kind  : GKind
  tiles : List Nat
deriving DecidableEq, Repr

/-- A bound accumulator space (R143): number, core, whether a RELEASE has completed, and its open groups. -/
structure Space where
  num     : Nat
  core    : Nat
  release : Bool
  groups  : List Group
deriving DecidableEq, Repr

/-- The STATE of a context status block (R196). -/
inductive CtxStatus
  | active | frozen | aborted | quarantined
deriving DecidableEq, Repr

/-- Who created a context: a host session (R475) or the group manager's JOB (R476). -/
inductive Owner
  | host (session : Nat)
  | group
deriving DecidableEq, Repr

/-- What the issue of a context's next entry waits for (R145, R201, R364, R337, R125, R148, R611, R207). -/
inductive IssueWait
  | completionEntries
  | freeCore (space : Nat)
  | prunerQueue
  | collectives
  | trugSlot (slot : Nat)
  | accumulator
  | secondEntry
  | cluster (n : Nat)
deriving DecidableEq, Repr

/-- One host stream of a context (R187, R188): grant, previous doorbell value, bytes consumed so far. -/
structure Stream where
  grant    : Nat
  prev     : W32
  consumed : Nat
deriving DecidableEq, Repr

/-- A REGION_SET that waits to be applied (R266, R479). -/
structure RegionPending where
  index    : Nat
  region   : Region
  deadline : Nat
  seq      : W32
deriving DecidableEq, Repr

/-- A grant given to a remote context at this home (R270), with the port its request came by (R272). -/
structure HomeGrant where
  id     : W32
  chip   : BitVec 12
  tag    : W16
  base   : Nat
  len    : Nat
  write  : Bool
deriving DecidableEq, Repr

/-- A context (R194 to R201, R263, R477). `dmas`: submission indices of the DMA commands read from its ring, newest first, while their
entries stand in it (R209). -/
structure Context where
  owner     : Owner
  clusters  : BitVec 8
  slotBase  : Nat
  slotCount : Nat
  sqBase    : BitVec 48
  sqLog2    : Nat
  cqBase    : BitVec 48
  cqLog2    : Nat
  csb       : BitVec 48
  jobId     : W16
  cperm     : Byte
  sqHead    : W32
  sqTail    : W32
  cqHead    : W32
  cqTail    : W32
  status    : CtxStatus
  dbErrs    : W16
  regions   : List Region
  streams   : List Stream
  spaces    : List Space
  issueWait : Option IssueWait
  pending   : Option RegionPending
  grants    : List HomeGrant
  latchedSq : Option W32
  latchedCq : Option W32
  planRecs  : List (BitVec 256)
  dmas      : List W32
deriving DecidableEq, Repr

/-- Where a command that has been issued stands. `sending`: its remote writes are not all sent (R288); `ended`: it has ended while a
Frost held its context, and completes at thaw (R233), its results left open then where its code says so (R229). -/
inductive Phase
  | running
  | waitEarlier
  | acting
  | grantWait (link : Nat) (tag : W16) (at_ : Nat)
  | held
  | shedHeld
  | epilogue
  | digest
  | frostHeld
  | restart
  | sending
  | ended (open_ : Bool)
deriving DecidableEq, Repr

/-- A message of a command that awaits its answer (R285, R313): its tag, the port it left on, where the answer's bytes
stand in the command's source, how many it asked for, how many of them have not come. -/
structure ReadOut where
  tag  : W16
  link : Nat
  off  : Nat
  len  : Nat
  left : Nat
deriving DecidableEq, Repr

/-- A grant a transfer holds at a remote home (R270): for its writes or its reads, the port, the chip, the grant id, whether it was
lost with its link (R272). -/
structure HeldGrant where
  lost  : Bool
  write : Bool
  link  : Nat
  chip  : BitVec 12
  id    : W32
deriving DecidableEq, Repr

/-- An issued command that is not complete (R200, R222): its context and submission index, the 64 bytes of its
entry and of its extension (second entry, operand, shape or coefficient block), the core and cluster that run
it, the generation it is bound to (R225), the completion entries it holds (R201), and its results so far. Of a transfer: the fill pointer (R186), where its bytes begin in its host
stream (R188), source bytes asked for, destination bytes written, arrivals out of order, source byte ranges that came
poisoned, reads outstanding, grants held. `outs`: the ranges of this device it may write,
whose contents are open when it ends early (R229). -/
structure Op where
  ctx     : Nat
  idx     : W32
  desc    : Block
  ext     : Block
  core    : Option Nat
  cluster : Nat
  gen     : W32
  phase   : Phase
  status  : Byte
  rflags  : Byte
  d0      : W32
  d1      : W16
  slots   : Nat
  tIssue  : Nat
  tiles   : List Nat
  gtiles  : List Nat
  gkind   : Option GKind
  pgroup  : List W32
  fill    : Nat
  bytes   : List Byte
  taken   : Nat
  base    : Nat
  asked   : Nat
  wrote   : Nat
  parts   : List (Nat × List Byte)
  bad     : List (Nat × Nat)
  reads   : List ReadOut
  rgrants : List HeldGrant
  outs    : List (Nat × Nat)
  progT   : Nat
  gapSaid : Bool
deriving DecidableEq, Repr

/-- A remote write or global SIGNAL that its home has not acknowledged (R284, R293): the command that sent it, the
port and home, the message tag, whether it was lost with its link. -/
structure Posted where
  ctx  : Nat
  idx  : W32
  link : Nat
  chip : BitVec 12
  tag  : W16
  lost : Bool
deriving DecidableEq, Repr

/-- A stationary-operand buffer of a core (R18, R102): the pass whose tile it holds, the tile's bytes, its block scales. -/
structure StatBuf where
  pass   : Nat
  bytes  : List Byte
  scales : List Byte
deriving DecidableEq, Repr

/-- A core (R18, R143, R573): service state, binding, registers, the tags of its COMMAND counter set (R541), the two stationary-operand
buffers with the granules lost in them by pass (R102, R255), whether its array has left Idle (R112, R117). -/
structure Core where
  inService : Bool
  retired   : Bool
  resetting : Bool
  bound     : Option (Nat × Nat)
  lastCtx   : Option Nat
  event     : W32
  run       : W32
  tagCtx    : Option Nat
  tagIdx    : W32
  tagLayer  : W16
  tagOper   : W16
  tagEpoch  : W32
  held      : List Op
  bufs      : List StatBuf
  lost      : List (Nat × Nat)
  arrayOn   : Bool
  progT     : Nat
deriving DecidableEq, Repr

/-- A cluster (R17, R573). `cspDue`: its CSP has restarted in a Frost, and completes or reissues commands at thaw (R484, R233). -/
structure Cluster where
  event      : W32
  rakeEvent  : W32
  switchOff  : Bool
  resetting  : Bool
  issueHeld  : Bool
  cspDue     : Bool
  tagEpoch   : W32
  progT      : Nat
deriving DecidableEq, Repr

/-- An HBM controller with its Pruner (R238 to R254, R363, R573): training and refresh state, event registers, the
patrol scrub's next sector (pseudo-channel, frame, slot), the sectors poisoned and not yet reported (R605), the Pruner's progress. -/
structure Hbm where
  trained     : Bool
  trainFail   : Bool
  selfRefresh : Bool
  tempC       : Byte
  errStat     : W32
  scrubP      : Nat
  scrubFrame  : Nat
  scrubSlot   : Nat
  unreported  : List Nat
  prnEvent    : W32
  prnReset    : Bool
  prnProgT    : Nat
deriving DecidableEq, Repr

/-- The states of a Runner link (the *Link states* table). -/
inductive LinkState
  | disabled | detect | train | align | negotiate | up | retrain | keepalive | down | refused | shutdown
deriving DecidableEq, Repr

/-- One flit held for replay or queued to send: its sequence number and its 256 bytes (R299, R300). -/
structure Flit where
  seq   : W32
  bytes : List Byte
deriving DecidableEq, Repr

/-- What becomes of a message being received: kept until it is whole (R312), to be sent on once its port has credits for it, sent on
through a port as it comes (R323), dropped (R324, R326). -/
inductive RxMode
  | keep
  | wait
  | through (port : Nat)
  | drop
deriving DecidableEq, Repr

/-- A message being received (R301, R312): its header fields with the data bytes so far, the body of its header flit, its LENGTH. -/
structure RxMsg where
  msg    : Msg
  body   : List Byte
  length : Nat
  mode   : RxMode
deriving DecidableEq, Repr

/-- A Runner port (R296 to R330). Counts of the link layer: sequence numbers of both directions, the replay
buffer, cumulative credits granted to us and used by us, buffers freed by us and in use by channel (dedicated, shared).
`slot`: flit slots filled in the frame being sent (R298). `again`: flits discarded that the peer sends again (R305), `resent`: whether the flit accepted last was one. `fwdWrites`: the last
flits of forwarded WRITEs that are held for replay (R272). `syncT`: when its last SYNC_REQ departed (R319). `through`: the port whose message passes out
on this one as it comes (R323), with when its hold began (R326); control flits due meanwhile with their events. `minor`: the
Belaeri minor version in use (R318). -/
structure Link where
  state     : LinkState
  cause     : Nat
  peerChip  : BitVec 12
  peerPort  : BitVec 5
  peerSer   : W64
  lanesGood : BitVec 4
  width2    : Bool
  event     : W32
  txSeq     : W32
  rxSeq     : W32
  ackedSeq  : W32
  replay    : List Flit
  noProg    : Nat
  nakSent   : Bool
  crShared  : W32
  crVc      : List W32
  usedSh    : W32
  usedVc    : List W32
  freedSh   : W32
  freedVc   : List W32
  bufVc     : List Nat
  bufSh     : List Nat
  slot      : Nat
  again     : Nat
  resent    : Bool
  fwdWrites : List W32
  syncT     : W64
  rx        : Option RxMsg
  sinceAck  : Nat
  reqTag    : W16
  admitted  : Bool
  authOk    : Bool
  nonce     : Option (BitVec 256)
  nonceAt   : Nat
  verdict   : Option (Byte × Byte)
  verdictT  : Nat
  writeTags : List (BitVec 12 × W16)
  lastAckT  : Nat
  ackProgT  : Nat
  upT       : Nat
  downT     : Nat
  holdT     : Option Nat
  frameNum  : W32
  markSeen  : Option W32
  sendQ     : List Msg
  groupHeld : List (Nat × Msg)
  through   : Option Nat
  ctlDue    : Option Bool
  evDue     : List LinkEvent
  minor     : Nat
deriving DecidableEq, Repr

/-- A port table entry (R321). -/
structure PortEntry where
  peerChip : W16
  peerPort : Byte
  enable   : Bool
  syncPar  : Bool
  allowX2  : Bool
deriving DecidableEq, Repr

/-- One ring of a collective set: this member's ports to its clockwise and counter-clockwise neighbours and the
members in clockwise order (R331, R425). -/
structure Ring where
  cw    : Nat
  ccw   : Nat
  order : List (BitVec 12)
deriving DecidableEq, Repr

/-- A collective set (R331). -/
structure CollSet where
  id      : Nat
  members : List (BitVec 12)
  rings   : List Ring
  refused : Bool
deriving DecidableEq, Repr

/-- A segment of a collective at its owner: the partials that have arrived, in order, of the main path and of the
independent check path (R343, R353). -/
structure SegState where
  index : Nat
  arcs  : List Msg
  chk   : Option Msg
deriving DecidableEq, Repr

/-- A collective in progress at this member (R334 to R337): its command, set and tag, its deadline, what the member has
still to do, by segment (0 add on the main path, 1 add on the check path, 2 write the result), the segments it owns,
new agreed codes by block (R350), and the counts and marks it reports (R349, R351, R352, R354). `hold`: the ring ports at which an
Ordered collective reserves buffers (R345). `begun`: not while it waits for paused link adders (R360). `noCheck`: its segments that had no
independent route when they started (R355). `ownBad`: a comparison of this member's share has failed (R354). -/
structure Coll where
  ctx      : Nat
  idx      : W32
  setId    : Nat
  tag      : W32
  deadline : Nat
  left     : List (Nat × Nat)
  segs     : List SegState
  codes    : List (Nat × Nat)
  esc      : Nat
  nan      : Option (Nat × Nat)
  sawNan   : Bool
  poison   : Bool
  mismatch : Bool
  hold     : List Nat
  begun    : Bool
  noCheck  : List Nat
  ownBad   : Bool
deriving DecidableEq, Repr

/-- What a Pruner command is doing (R363, R372, R376, R377): the scan of R377, the update of rules 1 and 2, the gradient read
of a frozen group, the norms of phase 1, the exchange of phase 2, phase 3, a sweep. -/
inductive PrPhase
  | scan | update | frozen | norm | exchange | apply | sweep
deriving DecidableEq, Repr

/-- A command in the Pruner queue (R363, R364): its phase, the Pruners whose share of the phase is finished, FP64 partial
sums by Pruner (W or SUM, U or SUMSQ, AMAX), whether it consumed poison, met any, found a non-finite gradient; counts of a
sweep; rho (R374); when the exchange began. -/
structure PruneCmd where
  ctx    : Nat
  idx    : W32
  phase  : PrPhase
  done   : List Bool
  wPart  : List Nat
  uPart  : List Nat
  amax   : List Nat
  poison : Bool
  seen   : Bool
  nonfin : Bool
  count  : Nat
  extra  : Nat
  rho    : W32
  at_    : Nat
deriving DecidableEq, Repr

/-- A sequence slot (R120, R121): the context it belongs to and its descriptor. -/
structure Slot where
  ctx  : Nat
  desc : Block
deriving DecidableEq, Repr

/-- A request of the Trug (R124): slot, submission index, rows, the deadline, the descriptor it was accepted under. -/
structure TrugReq where
  ctx      : Nat
  idx      : W32
  slot     : Nat
  sdesc    : Block
  desc     : Block
  rows     : Nat
  deadline : Nat
deriving DecidableEq, Repr

/-- An open or issued batch (R127, R128): its home cluster, its requests in order, the pass number once issued. -/
structure Batch where
  cluster : Nat
  reqs    : List TrugReq
  pass    : Option Nat
  core    : Option Nat
deriving DecidableEq, Repr

/-- The sync states of R56. -/
inductive SyncState
  | free | acquire | locked | holdover
deriving DecidableEq, Repr

/-- The time base and its discipline (R49 to R57). `slew`: the offset still to be slewed off; `rate`: the correction of the count rate in
parts per 10^9, `rateT` what it has gathered toward a count (R54); `delay`: the link delay last measured (R319). -/
structure TimeState where
  now       : W64
  refLost   : Bool
  lostFlag  : Bool
  stepped   : Bool
  sync      : SyncState
  offset    : Byte
  ahead     : Bool
  refChip   : Option (BitVec 12)
  port      : Option Nat
  lockRun   : Nat
  lastExch  : Nat
  t1        : Option (Nat × W64)
  slew      : Int
  slewT     : Nat
  mayStep   : Bool
  lastReq   : Nat
  rate      : Int
  rateT     : Int
  delay     : Int
deriving DecidableEq, Repr

/-- The start sequence (R413 to R419): PWR_GOOD, the sampled SB_ADDR, power-up steps acknowledged with their extensions and
when the last was, flags of TOP_START_STAT, boundary scan (R590), whether Stage 2 has been reached since the last power-up
or device cold reset (R432). -/
structure StartState where
  good      : Bool
  sbAddr    : BitVec 3
  seqPos    : Nat
  seqExt    : List Nat
  seqT      : Nat
  stage     : Nat
  halted    : Bool
  failCode  : Byte
  failDet   : Byte
  pseqIgn   : Bool
  pseqExt   : Bool
  drecNew   : Bool
  fallback  : Bool
  runSlot   : Nat
  extest    : Bool
  bypass    : Bool
  chipId    : W16
  resetWhy  : Nat
  trainedOnce : Bool
deriving DecidableEq, Repr

/-- A regulator request without its acknowledgement (R442): rail, set point or on/off in mV, when sent, retries. -/
structure RegReq where
  rail    : Rail
  mv      : Nat
  sentAt  : Nat
  retries : Nat
deriving DecidableEq, Repr

/-- The power states of PWR_STAT.STATE. -/
inductive PState
  | active | enterDoze | doze | leaveDoze | enterRest | rest | leaveRest
deriving DecidableEq, Repr

/-- Power, regulators and supply sag (R439 to R463). `runnerWake`: the Runner whose wake is held at shed stage 6 (R455). -/
structure PwrState where
  railsOn   : List Rail
  coreMv    : Nat
  reqs      : List RegReq
  limit     : Nat
  fwForced  : Bool
  regFault  : Bool
  uvSeen    : Bool
  shedSeen  : Bool
  uvRails   : List Rail
  shed      : Nat
  shedT     : Nat
  state     : PState
  step      : Nat
  byGroup   : Bool
  drainT    : Nat
  enabling  : List HeldFunction
  shutting  : List HeldFunction
  refuse    : W32
  wakeCfg   : W32
  emergT    : Option Nat
  clusterOn : Nat
  runnerWake : Option Nat
deriving DecidableEq, Repr

/-- Temperature (R458 to R460). -/
structure ThermState where
  cfg     : W32
  tj      : Nat
  site    : Nat
  tripped : Bool
  overTj  : Bool
  up      : Bool
  downEv  : Bool
  hotAt   : Option Nat
  coolAt  : Option Nat
  tripPin : Bool
deriving DecidableEq, Repr

/-- An entry of the measurement log (R528). -/
structure MeasEntry where
  kind   : Nat
  arg    : Nat
  index  : Nat
  time   : W64
  digest : Block
  detail : BitVec 128
deriving DecidableEq, Repr

/-- Security (R517 to R534): status, serial number, measurement log, the certificates it has verified. -/
structure SecState where
  rollback   : Bool
  rpmcFail   : Bool
  certInv    : Bool
  pufFail    : Bool
  idReady    : Bool
  serial     : W64
  ownerDig   : Block
  mlog       : List MeasEntry
  mdig       : Block
  lost       : Nat
  certCache  : List Block
deriving DecidableEq, Repr

/-- The flash behind the xSPI port (R421): its bytes, the three replay-protected counters (R524); of the accepted device record
its copy, REC_SEQ, BOOT_SLOT and TRIAL (R427, R428); where the next crash dump goes (R483). -/
structure FlashState where
  cells    : List Host.Cell
  rpmc     : List Nat
  drecCopy : Nat
  recSeq   : Nat
  bootSlot : Nat
  trial    : Bool
  dumpNext : Nat
deriving DecidableEq, Repr

/-- The management mailbox (R471 to R475): buffers, MBX_STAT, the session; a request in progress (CODE, SEQ) that waits for
the DMP, or as the command it came as for the SECP (R484). -/
structure MbxState where
  req     : List Host.Cell
  resp    : List Host.Cell
  busy    : Bool
  done    : Bool
  ignored : Bool
  status  : Byte
  reason  : W16
  session : Nat
  opened  : Bool
  priv    : Bool
  held    : Option (Nat × W32)
  waitSec : Option Instr
deriving DecidableEq, Repr

/-- An entry of the log ring (R481). -/
structure LogEntry where
  time     : W64
  seq      : W32
  source   : Byte
  severity : Byte
  trace    : W16
  args     : List W32
deriving DecidableEq, Repr

/-- The log ring, newest entry first, at most 2,048 (R481). -/
structure LogState where
  head : W32
  ring : List LogEntry
deriving DecidableEq, Repr

/-- FROST_STAT.STATE. -/
inductive FrostPhase
  | running | cutting | frozen | thawing
deriving DecidableEq, Repr

/-- Frost (R509 to R515): holders REG, CMD, PIN, SHED, GROUP in bits 0 to 4; the last Frost's id and initiating chip; counts of
local and group Frosts; when it started and settled; messages held. -/
structure FrostState where
  holders    : BitVec 5
  phase      : FrostPhase
  settled    : Bool
  thawIgn    : Bool
  stateWrite : Bool
  group      : Bool
  number     : BitVec 31
  localCount : BitVec 31
  groupCount : BitVec 31
  origin     : BitVec 12
  startT     : Nat
  cutT       : Nat
  held       : List (Nat × Msg)
deriving DecidableEq, Repr

/-- A recovery that is running (R505): the reset, its start, whether escalation reached it. -/
structure Recovery where
  unit : ResetUnit
  at_  : Nat
  esc  : Bool
deriving DecidableEq, Repr

/-- A suspect replay of R504: the cluster, the suspect under test with when its replay began (none while the cluster is reset
again), the suspects still to test. -/
structure Replay where
  cluster : Nat
  ctx     : Option Nat
  at_     : Nat
  rest    : List Nat
deriving DecidableEq, Repr

/-- The Sundial and recovery (R493 to R508): registers, the running recovery, faults that wait for its end, times of
escalations, a running replay, the suspects of a cluster hang (their held commands are in phase RESTART), which contexts
were cleared untested on which cluster when. -/
structure SunState where
  event    : W32
  lastKind : Nat
  lastUnit : Nat
  parked   : Bool
  recov    : Option Recovery
  queue    : List FaultSite
  escT     : List Nat
  replay   : Option Replay
  suspects : List Nat
  untested : List (Nat × Nat × Nat)
deriving DecidableEq, Repr

/-- A crash dump (R483). -/
structure Dump where
  num    : Nat
  proc   : Proc
  cause  : Nat
  slot   : Nat
  time   : W64
  body   : DumpBody
  logs   : List LogEntry
  poison : Bool
deriving DecidableEq, Repr

/-- A firmware processor (R464 to R466, R484, R487): whether it runs, its slot, when it began to, when it last restarted after a crash. -/
structure ProcState where
  runs     : Bool
  slot     : Nat
  beatT    : Nat
  lastRun  : Option Nat
deriving DecidableEq, Repr

/-- Firmware: the eleven processors (SECP, PMP, DMP, CSP_0 to CSP_7), dumps (in the ring, in the AON buffer, waiting to be copied to the flash) and the graft (R483 to R492), ATTEST messages
that wait for the SECP, with port and time of arrival (R484). -/
structure FwState where
  procs     : List ProcState
  dumpNum   : Nat
  dumps     : List Dump
  aonDump   : Option Dump
  dumpWait  : List Dump
  phase     : Nat
  stagedAt  : Nat
  stagedLen : Nat
  nextProc  : Nat
  readyBy   : Option Nat
  stepT     : Nat
  oldSlot   : Nat
  verified  : Bool
  ifMajor   : Nat
  ifMinor   : Nat
  attQ      : List (Nat × Nat × Msg)
deriving DecidableEq, Repr

/-- The group configuration record (R387), parsed: the record's bytes give the digest. -/
structure GroupCfg where
  groupId  : W64
  cfgSeq   : W32
  manager  : BitVec 12
  deputy   : BitVec 12
  slice    : Nat
  policy   : Nat
  replicas : Nat
  members  : List (BitVec 12)
  digest   : Block
deriving DecidableEq, Repr

/-- What the manager (or deputy) knows of a member (R390 to R401, R407 to R411). -/
structure Member where
  chip     : BitVec 12
  serial   : W64
  admitted : Bool
  passed   : Bool
  failed   : Bool
  beatT    : Nat
  recv     : W32
  done     : W32
  delayedT : Option Nat
  ifMinor  : Nat
deriving DecidableEq, Repr

/-- One item of a step plan (R394). -/
structure PlanItem where
  ctx     : Nat
  setStep : Bool
  entries : Nat
  addr    : BitVec 48
deriving DecidableEq, Repr

/-- A plan being copied (R395): where the copy stands (item, entry). -/
structure Plan where
  epoch  : W32
  step   : W32
  kind   : Nat
  update : Nat
  replay : Bool
  items  : List PlanItem
  item   : Nat
  entry  : Nat
deriving DecidableEq, Repr

/-- An open epoch at this member (R398): commands copied, records counted, whether the copy is finished. -/
structure Epoch where
  epoch  : W32
  copied : Nat
  recs   : Nat
  whole  : Bool
  pastUpdate : Bool
deriving DecidableEq, Repr

/-- A member's block of the job record (R480). -/
structure JobBlock where
  chip   : BitVec 12
  ctxs   : List Block
  normal : List Byte
  check  : List Byte
  restore : List Byte
deriving DecidableEq, Repr

/-- The job record (R394, R480). -/
structure JobRec where
  first  : W32
  last   : W32
  ckpt   : W32
  blocks : List JobBlock
deriving DecidableEq, Repr

/-- TOP_GROUP_STAT.STATE. -/
inductive GState
  | alone | badConfig | joining | refused | admitted | running | frosted | waitRejoin | held
deriving DecidableEq, Repr

/-- TOP_GROUP_STAT.ROLE. -/
inductive Role
  | none | worker | deputy | manager
deriving DecidableEq, Repr

/-- A rollback that has begun (R405, R410): the lowest epoch to be discarded, whether the RESTORE plan follows, whether only the
cut is awaited (else a READY). -/
structure Roll where
  low     : W32
  restore : Bool
  ready   : Bool
deriving DecidableEq, Repr

/-- Group operation (R387 to R412). As manager: the epochs sent since the last commit with STEP and PKIND, the rollback in
progress, the highest STEP that a replay repeats, whether a RESTORE plan is due, members waited for; reports meant for the
management mailbox (code, value). `selfQ`: messages to this device's own DMP, and those that wait for it, with when and on which port each
arrived. `rejoined`: admitted to a group that had committed an epoch (R55). -/
structure GroupState where
  cfg       : Option GroupCfg
  self      : BitVec 12
  state     : GState
  reason    : Nat
  role      : Role
  term      : Byte
  manager   : BitVec 12
  deputy    : Option (BitVec 12)
  formed    : Bool
  epochRecv : W32
  epochDone : W32
  epochTop  : W32
  step      : W32
  commitE   : W32
  commitS   : W32
  suspect   : Bool
  delayed   : Bool
  suspectE  : List W32
  replayed  : Option W32
  beatMgr   : Nat
  beatSent  : Nat
  joinT     : Nat
  members   : List Member
  waiting   : List (BitVec 12)
  job       : Option JobRec
  plans     : List Plan
  epochs    : List Epoch
  ifMinor   : Nat
  stale     : Nat
  issued    : List (W32 × W32 × Nat)
  roll      : Option Roll
  replayTo  : W32
  restoreDue : Bool
  selfQ     : List (Nat × Option Nat × Msg)
  reports   : List (Nat × Nat)
  rejoined  : Bool
deriving DecidableEq, Repr

/-- One bank of a wide mailbox (R564 to R567). -/
structure WideBank where
  sel     : W32
  valid   : Bool
  noSel   : Bool
  err     : Bool
  overrun : Bool
  data    : List W32
deriving DecidableEq, Repr

/-- Three copies of a voted field (R569). -/
structure Triple where
  c0 : W16
  c1 : W16
  c2 : W16
deriving DecidableEq, Repr

/-- The voted fields (R569), each in three copies. -/
structure Votes where
  resetCluster : Triple
  resetWarm    : Triple
  resetCold    : Triple
  mode         : Triple
  debugLock    : Triple
  flashLock    : Triple
  clusterMs    : Triple
  coreMs       : Triple
  prunerMs     : Triple
  runnerMs     : Triple
  swap         : Triple
  pinEn        : Triple
  linkEnable   : List Triple
  linkAllowX2  : List Triple
deriving DecidableEq, Repr

/-- Registers of TOP, CFG, PERF, PCIE and TRL that no other part holds (R563 to R573). -/
structure RegState where
  topEvent   : W32
  fixCount   : W32
  voteStat   : W32
  accessErr  : W32
  dirty      : Bool
  gen        : W32
  swapEpoch  : W32
  perfFilter : W32
  perfTag    : W32
  perfTagOp  : W32
  bar2Base   : W32
  trlEvent   : W32
  active     : List (Nat × W32)
  shadow     : List (Nat × W32)
deriving DecidableEq, Repr

/-- The PCIe endpoint (R268, R419, R467 to R470, R573): in L0, PERST# asserted, training, BAR2 enabled in the command register and its
size in GiB, the link's rate code, width and mode. -/
structure PcieState where
  l0       : Bool
  perst    : Bool
  training : Bool
  bar2On   : Bool
  bar2Gib  : Nat
  rate     : Nat
  width    : Nat
  flitMode : Bool
deriving DecidableEq, Repr

/-- What the device emits: every value or message that leaves the block, newest last. -/
inductive Output
  | msix (vector : Nat)
  | bar2Data (data : List Byte) (ep : Bool)
  | bar2Abort
  | bar2Unsupported
  | hostWrite (addr : W64) (data : List Byte) (ep : Bool)
  | hostRead (addr : W64) (len : Nat)
  | regData (v : W64)
  | smbusData (status : Byte) (v : W32)
  | smbusNack
  | alertAddr (addr : BitVec 7)
  | jtag (v : W32)
  | jtagBypass
  | jtagScan
  | configRetry
  | configOk
  | regulator (r : Rail) (mv : Nat)
  | readStatus (r : Rail)
  | message (link : Nat) (m : Msg)
  | flit (link : Nat) (f : Flit)
  | event (link : Nat) (e : LinkEvent)
  | frames (link : Nat) (ftype : Nat) (num : W32) (count : Nat)
  | thermTrip (low : Bool)
deriving DecidableEq, Repr

/-- The state of the L8. `adderQ`: collective segments that wait for paused link adders (R360). `free` counts the values the manual leaves open that have been taken (Config). -/
structure State where
  pending  : List Instr
  free     : Nat
  time     : TimeState
  start    : StartState
  pwr      : PwrState
  therm    : ThermState
  sec      : SecState
  flash    : FlashState
  mbx      : MbxState
  log      : LogState
  sun      : SunState
  frost    : FrostState
  fw       : FwState
  group    : GroupState
  regs     : RegState
  votes    : Votes
  pcie     : PcieState
  wide     : List (Nat × Nat)
  perf     : List (Nat × Nat)
  banks    : List (Nat × WideBank)
  mem      : Memory
  caches   : List Cache
  clusters : List Cluster
  cores    : List Core
  hbms     : List Hbm
  links    : List Link
  ports    : List PortEntry
  routes   : List (Nat × W16)
  sets     : List CollSet
  ctxs     : List (Option Context)
  ops      : List Op
  colls    : List Coll
  collHeld : List (Nat × Msg)
  collOver : List (Nat × W32)
  adderQ   : List (Nat × Msg)
  pruneQ   : List PruneCmd
  slots    : List (Nat × Slot)
  batches  : List Batch
  posted   : List Posted
  passes   : Nat
  coreWait : List (Nat × Nat)
  retired  : List Nat
  overflow : Bool
  runref   : List Bool
  out      : List Output
deriving DecidableEq, Repr

/-- A voted field with three equal copies. -/
def Triple.of (v : W16) : Triple := { c0 := v, c1 := v, c2 := v }

/-- A core after reset: in service, nothing bound (R573 gives CORE_STAT 0 with the core idle). -/
def Core.reset : Core :=
  { inService := false, retired := false, resetting := false, bound := none, lastCtx := none,
    event := 0, run := 0, tagCtx := none, tagIdx := 0, tagLayer := 0, tagOper := 0, tagEpoch := 0, held := [],
    bufs := List.replicate 2 { pass := 0, bytes := [], scales := [] }, lost := [], arrayOn := false, progT := 0 }

/-- A cluster after reset (R573). -/
def Cluster.reset : Cluster :=
  { event := 0, rakeEvent := 0, switchOff := false, resetting := false, issueHeld := false, cspDue := false, tagEpoch := 0, progT := 0 }

/-- An HBM controller and Pruner after reset (R573). -/
def Hbm.reset : Hbm :=
  { trained := false, trainFail := false, selfRefresh := false, tempC := 0, errStat := 0, scrubP := 0,
    scrubFrame := 0, scrubSlot := 0, unreported := [], prnEvent := 0, prnReset := false, prnProgT := 0 }

/-- A Runner port after reset: DISABLED, LINK_STAT 0 (R573). -/
def Link.reset : Link :=
  { state := .disabled, cause := 0, peerChip := 0, peerPort := 0, peerSer := 0, lanesGood := 0, width2 := false,
    event := 0, txSeq := 0, rxSeq := 0, ackedSeq := 0, replay := [], noProg := 0, nakSent := false,
    crShared := 0, crVc := List.replicate 8 0, usedSh := 0, usedVc := List.replicate 8 0,
    freedSh := 0, freedVc := List.replicate 8 0, bufVc := List.replicate 8 0, bufSh := List.replicate 8 0, slot := 0, again := 0, resent := false,
    fwdWrites := [], syncT := 0, rx := none, sinceAck := 0, reqTag := 0, admitted := false, authOk := false,
    nonce := none, nonceAt := 0, verdict := none, verdictT := 0, writeTags := [],
    lastAckT := 0, ackProgT := 0, upT := 0, downT := 0, holdT := none, frameNum := 0, markSeen := none,
    sendQ := [], groupHeld := [], through := none, ctlDue := none, evDue := [], minor := 0 }

/-- A port table entry when the seed image holds no PORT_TABLE: link disabled (R423). -/
def PortEntry.off : PortEntry :=
  { peerChip := 0xFFFF, peerPort := 0xFF, enable := false, syncPar := false, allowX2 := false }

/-- The time base at reset (R49, R56, TOP_TIME_STAT 0). -/
def TimeState.reset : TimeState :=
  { now := 0, refLost := false, lostFlag := false, stepped := false, sync := .free, offset := 0, ahead := false,
    refChip := none, port := none, lockRun := 0, lastExch := 0, t1 := none, slew := 0, slewT := 0, mayStep := false,
    lastReq := 0, rate := 0, rateT := 0, delay := 0 }

/-- The start sequence before PWR_GOOD rises (TOP_START_STAT 0, TOP_CHIP 0xFFFF, TOP_RESET_STAT 0). -/
def StartState.reset : StartState :=
  { good := false, sbAddr := 0, seqPos := 0, seqExt := [], seqT := 0, stage := 0, halted := false, failCode := 0, failDet := 0,
    pseqIgn := false, pseqExt := false, drecNew := false, fallback := false, runSlot := 0, extest := false,
    bypass := false, chipId := 0xFFFF, resetWhy := 0, trainedOnce := false }

/-- Power at reset (PWR_STAT 0x80 through the voted MODE and limit, PWR_REFUSE 0, PWR_WAKE_CFG 0x0003_0000). -/
def PwrState.reset : PwrState :=
  { railsOn := [], coreMv := 0, reqs := [], limit := 0, fwForced := false, regFault := false, uvSeen := false,
    shedSeen := false, uvRails := [], shed := 0, shedT := 0, state := .active, step := 0, byGroup := false, drainT := 0, enabling := [], shutting := [], refuse := 0, wakeCfg := 0x00030000,
    emergT := none, clusterOn := 0, runnerWake := none }

/-- Temperature at reset (THERM_CFG 0x0A64, THERM_STAT 0). -/
def ThermState.reset : ThermState :=
  { cfg := 0x0A64, tj := 0, site := 0, tripped := false, overTj := false, up := false, downEv := false,
    hotAt := none, coolAt := none, tripPin := false }

/-- Security at reset (SEC_STAT 0, R527: M is 64 zero bytes). -/
def SecState.reset : SecState :=
  { rollback := false, rpmcFail := false, certInv := false, pufFail := false, idReady := false, serial := 0,
    ownerDig := 0, mlog := [], mdig := 0, lost := 0, certCache := [] }

/-- A blank flash (R603: no seed header). The factory area's contents are the board's. -/
def FlashState.reset : FlashState := { cells := [], rpmc := [0, 0, 0], drecCopy := 0, recSeq := 0, bootSlot := 0, trial := false, dumpNext := 0 }

/-- The mailbox at reset (MBX_STAT 0). -/
def MbxState.reset : MbxState :=
  { req := [], resp := [], busy := false, done := false, ignored := false, status := 0, reason := 0, session := 0,
    opened := false, priv := false, held := none, waitSec := none }

/-- The Sundial at reset (SUN_STAT 0, SUN_EVENT 0). -/
def SunState.reset : SunState :=
  { event := 0, lastKind := 0, lastUnit := 0, parked := false, recov := none, queue := [], escT := [],
    replay := none, suspects := [], untested := [] }

/-- Frost at reset (FROST_STAT 0, FROST_ID 0, STATE_WRITE 0). -/
def FrostState.reset : FrostState :=
  { holders := 0, phase := .running, settled := false, thawIgn := false, stateWrite := false, group := false,
    number := 0, localCount := 0, groupCount := 0, origin := 0, startT := 0, cutT := 0, held := [] }

/-- Firmware at reset: no processor runs, no dump, graft IDLE; the interface is the ROM's, 1.0 (DESIGN CHOICE, log entry 1). -/
def FwState.reset : FwState :=
  { procs := List.replicate 11 { runs := false, slot := 0, beatT := 0, lastRun := none }, dumpNum := 0, dumps := [], aonDump := none,
    dumpWait := [], phase := 0, stagedAt := 0, stagedLen := 0, nextProc := 0, readyBy := none, stepT := 0,
    oldSlot := 0, verified := false, ifMajor := 1, ifMinor := 0, attQ := [] }

/-- Group state at reset (TOP_GROUP_STAT 0, TOP_GROUP_EPOCH 0). -/
def GroupState.reset : GroupState :=
  { cfg := none, self := 0, state := .alone, reason := 0, role := .none, term := 0, manager := 0, deputy := none,
    formed := false, epochRecv := 0, epochDone := 0, epochTop := 0, step := 0, commitE := 0, commitS := 0,
    suspect := false, delayed := false, suspectE := [], replayed := none, beatMgr := 0,
    beatSent := 0, joinT := 0, members := [], waiting := [], job := none, plans := [], epochs := [],
    ifMinor := 0, stale := 0, issued := [], roll := none, replayTo := 0, restoreDue := false, selfQ := [], reports := [],
    rejoined := false }

/-- The voted fields at their reset values (R569 and the register maps). -/
def Votes.reset : Votes :=
  { resetCluster := .of 0, resetWarm := .of 0, resetCold := .of 0, mode := .of 2, debugLock := .of 1,
    flashLock := .of 1, clusterMs := .of 0x0064, coreMs := .of 0x0032, prunerMs := .of 0x00C8, runnerMs := .of 0x0A,
    swap := .of 0, pinEn := .of 1, linkEnable := List.replicate 24 (.of 0), linkAllowX2 := List.replicate 24 (.of 1) }

/-- The remaining registers at reset (R563 to R573); the configuration maps list nothing, so every SH field reads
its reset value. -/
def RegState.reset : RegState :=
  { topEvent := 0, fixCount := 0, voteStat := 0, accessErr := 0, dirty := false, gen := 0, swapEpoch := 0,
    perfFilter := 0, perfTag := 0, perfTagOp := 0, bar2Base := 0, trlEvent := 0, active := [],
    shadow := [] }

/-- The PCIe endpoint at reset: no link (PCIE_STAT 0), BAR2 disabled and at its largest size (log entry 27). -/
def PcieState.reset : PcieState :=
  { l0 := false, perst := true, training := false, bar2On := false, bar2Gib := 512, rate := 0, width := 0, flitMode := false }

/-- The machine at reset: powered on its AON supply, before PWR_GOOD rises, every register at its reset value,
memory with nothing listed, no context, no command waiting. -/
def State.reset : State :=
  { pending := [], free := 0, time := .reset, start := .reset, pwr := .reset, therm := .reset, sec := .reset,
    flash := .reset, mbx := .reset, log := { head := 0, ring := [] }, sun := .reset, frost := .reset, fw := .reset,
    group := .reset, regs := .reset, votes := .reset, pcie := .reset, wide := [], perf := [], banks := [],
    mem := { cells := [], poison := [] }, caches := List.replicate 8 { lines := [], plru := [] },
    clusters := List.replicate 8 .reset, cores := List.replicate 128 .reset, hbms := List.replicate 8 .reset,
    links := List.replicate 24 .reset, ports := List.replicate 24 .off, routes := [], sets := [],
    ctxs := List.replicate 64 none, ops := [], colls := [], collHeld := [], collOver := [], adderQ := [], pruneQ := [], slots := [], batches := [], posted := [], passes := 0,
    coreWait := [], retired := [], overflow := false, runref := [true, true], out := [] }

end Sys2Proof.Machine
end

