-- ==== Sys2Proof/Machine/Ops.lean ====
section
/-! DEFINITION. The named operations over the state: sparse contents, bytes, device memory with its poison, lists
of units, counters, event registers, what the device emits. Every meaning reads and writes through these. -/

namespace Sys2Proof.Machine

open Sys2Proof

/-! ### Sparse contents in canonical form -/

/-- The value at a key; an unlisted key reads as `d`. -/
def sparseGet {α : Type} (d : α) : List (Nat × α) → Nat → α
  | [], _ => d
  | (k, v) :: t, a => if k = a then v else sparseGet d t a

/-- Put a value at a key, keeping keys rising and listing no default. -/
def sparsePut {α : Type} [DecidableEq α] (d : α) : List (Nat × α) → Nat → α → List (Nat × α)
  | [], a, v => if v = d then [] else [(a, v)]
  | (k, w) :: t, a, v =>
    if a < k then (if v = d then (k, w) :: t else (a, v) :: (k, w) :: t)
    else if a = k then (if v = d then t else (a, v) :: t)
    else (k, w) :: sparsePut d t a v

/-- The canonical form: keys strictly rising from `lo`, no entry at the default. -/
def sparseWf {α : Type} [DecidableEq α] (d : α) : Nat → List (Nat × α) → Bool
  | _, [] => true
  | lo, (k, v) :: t => decide (lo ≤ k) && decide (v ≠ d) && sparseWf d (k + 1) t

/-- Put a number into a strictly rising list. -/
def natPut : List Nat → Nat → List Nat
  | [], a => [a]
  | k :: t, a => if a < k then a :: k :: t else if a = k then k :: t else k :: natPut t a

/-- Take a number out of a strictly rising list. -/
def natDrop : List Nat → Nat → List Nat
  | [], _ => []
  | k :: t, a => if a = k then t else k :: natDrop t a

/-- The canonical form of a set of numbers: strictly rising from `lo`. -/
def natWf : Nat → List Nat → Bool
  | _, [] => true
  | lo, k :: t => decide (lo ≤ k) && natWf (k + 1) t

/-! ### Bytes and words, little-endian (R6) -/

/-- The `n` low bytes of a number. -/
def bytesOf : Nat → Nat → List Byte
  | 0, _ => []
  | n + 1, v => BitVec.ofNat 8 v :: bytesOf n (v / 256)

/-- The number that bytes spell. -/
def natOf : List Byte → Nat
  | [] => 0
  | b :: t => b.toNat + 256 * natOf t

/-- `n` bytes of a list at an offset, as a number; bytes past the end read as zero. -/
def fieldAt (bs : List Byte) (off n : Nat) : Nat := natOf ((bs.drop off).take n)

/-- Bits `hi` down to `lo` of a number. -/
def bitsOf (v hi lo : Nat) : Nat := v / 2 ^ lo % 2 ^ (hi + 1 - lo)

/-- Bit `i` of a number. -/
def bitOf (v i : Nat) : Bool := v / 2 ^ i % 2 == 1

/-- 1 for true. -/
def bnat (b : Bool) : Nat := if b then 1 else 0

/-- Bytes written over a list at an offset. -/
def patch (bs : List Byte) (off : Nat) (v : List Byte) : List Byte :=
  bs.take off ++ v ++ bs.drop (off + v.length)

/-- The 64 bytes of a block as a block. -/
def blockOf (bs : List Byte) : Block := BitVec.ofNat 512 (natOf bs)

/-- The low `n` bits set, a signed number in 32 bits and so on: two's complement reading of `n` bits. -/
def signed (n v : Nat) : Int := if v < 2 ^ (n - 1) then (v : Int) else (v : Int) - 2 ^ n

/-- An integer as the `n`-bit pattern that holds it modulo 2^n. -/
def wrapTo (n : Nat) (i : Int) : Nat := (i % 2 ^ n).toNat

/-- The smaller of a number and a limit: a saturating count. -/
def satAt (lim v : Nat) : Nat := if v ≤ lim then v else lim

/-- A count in 0 to `n` - 1 as a list, the order used throughout. -/
def upto (n : Nat) : List Nat := List.range n

/-! ### Device memory and its poison (R234, R248, R249) -/

/-- The 32-byte granule of an address (R249). -/
def granule (a : Nat) : Nat := a / 32

/-- The granules that `n` bytes from `a` touch. -/
def granules (a n : Nat) : List Nat :=
  if n = 0 then [] else (upto ((a + n - 1) / 32 - a / 32 + 1)).map (fun i => a / 32 + i)

/-- What a byte that nothing has written reads as: 0 in HBM after initialisation (R431), and a DESIGN CHOICE for
the on-die stores (log entry 4). -/
def emptyByte : Byte := 0

/-- The byte at an address. -/
def Memory.byte (m : Memory) (a : Nat) : Byte := sparseGet emptyByte m.cells a

/-- Write one byte. -/
def Memory.setByte (m : Memory) (a : Nat) (b : Byte) : Memory :=
  { m with cells := sparsePut emptyByte m.cells a b }

/-- Read `n` bytes. -/
def Memory.read (m : Memory) (a n : Nat) : List Byte := (upto n).map (fun i => m.byte (a + i))

/-- Write bytes at consecutive addresses. -/
def Memory.write (m : Memory) : Nat → List Byte → Memory
  | _, [] => m
  | a, b :: t => (m.setByte a b).write (a + 1) t

/-- Whether a granule is poisoned. -/
def Memory.isPoison (m : Memory) (g : Nat) : Bool := m.poison.contains g

/-- Set or clear the poison of a granule. -/
def Memory.setPoison (m : Memory) (g : Nat) (p : Bool) : Memory :=
  { m with poison := if p then natPut m.poison g else natDrop m.poison g }

/-- The poisoned granules among those that `n` bytes from `a` touch. -/
def Memory.poisonIn (m : Memory) (a n : Nat) : List Nat := (granules a n).filter m.isPoison

/-- What a write does to one granule's poison (R248): poisoned data sets the mark, a whole good granule clears it,
a part of one leaves it. -/
def Memory.writePoison (m : Memory) (a n : Nat) (bad : List Nat) (g : Nat) : Memory :=
  if bad.contains g then m.setPoison g true
  else if a ≤ 32 * g ∧ 32 * g + 32 ≤ a + n then m.setPoison g false
  else m

/-- Store bytes of which the granules `bad` arrive poisoned (R248). -/
def Memory.store (m : Memory) (a : Nat) (bs : List Byte) (bad : List Nat) : Memory :=
  (granules a bs.length).foldl (fun m g => m.writePoison a bs.length bad g) (m.write a bs)

/-- The canonical form of the memory: cells with rising addresses within 48 bits and none at the empty byte, poison
a strictly rising list of granules. -/
def Memory.wf (m : Memory) : Bool := sparseWf emptyByte 0 m.cells && natWf 0 m.poison

/-! ### Access to units -/

/-- The unit at an index, or the one given where the index names none. -/
def unitAt {α : Type} (d : α) (l : List α) (i : Nat) : α := (l[i]?).getD d

def State.core (s : State) (i : Nat) : Core := unitAt .reset s.cores i
def State.cluster (s : State) (i : Nat) : Cluster := unitAt .reset s.clusters i
def State.hbm (s : State) (i : Nat) : Hbm := unitAt .reset s.hbms i
def State.link (s : State) (i : Nat) : Link := unitAt .reset s.links i
def State.port (s : State) (i : Nat) : PortEntry := unitAt .off s.ports i
def State.cache (s : State) (i : Nat) : Cache := unitAt { lines := [], plru := [] } s.caches i
def State.ctx (s : State) (i : Nat) : Option Context := unitAt none s.ctxs i
/-- A processor; at shed stage 7 the DMP and the CSPs stand still with their state retained (R453). -/
def State.proc (s : State) (i : Nat) : ProcState :=
  let p := unitAt { runs := false, slot := 0, beatT := 0, lastRun := none } s.fw.procs i
  { p with runs := p.runs && !(decide (2 ≤ i) && decide (7 ≤ s.pwr.shed)) }

def State.modCore (s : State) (i : Nat) (f : Core → Core) : State := { s with cores := s.cores.modify i f }
def State.modCluster (s : State) (i : Nat) (f : Cluster → Cluster) : State :=
  { s with clusters := s.clusters.modify i f }
def State.modHbm (s : State) (i : Nat) (f : Hbm → Hbm) : State := { s with hbms := s.hbms.modify i f }
def State.modLink (s : State) (i : Nat) (f : Link → Link) : State := { s with links := s.links.modify i f }
def State.modCache (s : State) (i : Nat) (f : Cache → Cache) : State := { s with caches := s.caches.modify i f }
def State.modCtx (s : State) (i : Nat) (f : Context → Context) : State :=
  { s with ctxs := s.ctxs.modify i (fun o => o.map f) }
def State.setCtx (s : State) (i : Nat) (c : Option Context) : State := { s with ctxs := s.ctxs.set i c }
def State.modProc (s : State) (i : Nat) (f : ProcState → ProcState) : State :=
  { s with fw := { s.fw with procs := s.fw.procs.modify i f } }
def State.modRegs (s : State) (f : RegState → RegState) : State := { s with regs := f s.regs }
def State.setMem (s : State) (m : Memory) : State := { s with mem := m }

/-- The number of a processor in the list of eleven: SECP 0, PMP 1, DMP 2, CSP n at 3 + n (R464). -/
def procNum : Proc → Nat
  | .secp => 0
  | .pmp => 1
  | .dmp => 2
  | .csp n => 3 + n.val

/-- The time base as a number of nanoseconds. -/
def State.nowN (s : State) : Nat := s.time.now.toNat

/-- Replace the operation that `p` picks, the first only. -/
def modFirst {α : Type} (p : α → Bool) (f : α → α) : List α → List α
  | [] => []
  | x :: t => if p x then f x :: t else x :: modFirst p f t

/-- Whether an operation is command `idx` of context `c`. -/
def Op.is (o : Op) (c : Nat) (idx : W32) : Bool := o.ctx == c && o.idx == idx

def State.op? (s : State) (c : Nat) (idx : W32) : Option Op := s.ops.find? (fun o => o.is c idx)
def State.modOp (s : State) (c : Nat) (idx : W32) (f : Op → Op) : State :=
  { s with ops := modFirst (fun o => o.is c idx) f s.ops }
def State.putOp (s : State) (o : Op) : State := s.modOp o.ctx o.idx (fun _ => o)
def State.addOp (s : State) (o : Op) : State := { s with ops := s.ops ++ [o] }
def State.dropOp (s : State) (c : Nat) (idx : W32) : State :=
  { s with ops := s.ops.filter (fun o => !o.is c idx) }

/-! ### What leaves the device, free values, counters -/

/-- Emit something (newest last). -/
def State.emit (s : State) (o : Output) : State := { s with out := s.out ++ [o] }

/-- A byte the manual leaves open, and the state that has used it up (log entry 5). -/
def State.takeByte (s : State) : Byte × State := (Config.freeByte s.free, { s with free := s.free + 1 })

/-- `n` bytes the manual leaves open. -/
def State.takeBytes (s : State) (n : Nat) : List Byte × State :=
  ((upto n).map (fun i => Config.freeByte (s.free + i)), { s with free := s.free + n })

/-- Leave the contents of a range open (R229: results that are partial or unspecified; log entry 5). -/
def State.openRange (s : State) (a n : Nat) : State :=
  let (bs, s) := s.takeBytes n
  s.setMem (s.mem.write a bs)

/-- The largest 64-bit value, where wide counters saturate. -/
def max64 : Nat := 2 ^ 64 - 1

/-- The key of a wide counter: the block's offset in the register window and its WIDE_SEL. -/
def wideKey (block sel : Nat) : Nat := block * 256 + sel

/-- Block offsets in the register window (the *Register blocks* table). -/
def blkTop : Nat := 0
def blkPwr : Nat := 0x2_0000
def blkSec : Nat := 0x4_0000
def blkSun : Nat := 0x6_0000
def blkFrost : Nat := 0x7_0000
def blkPerf : Nat := 0x8_0000
def blkPcie : Nat := 0xB_0000
def blkHbm (n : Nat) : Nat := 0x200_0000 + n * 0x4_0000
def blkLink (n : Nat) : Nat := 0x300_0000 + n * 0x1_0000

/-- Add to a wide counter, saturating. -/
def State.count (s : State) (block sel n : Nat) : State :=
  let k := wideKey block sel
  { s with wide := sparsePut 0 s.wide k (satAt max64 (sparseGet 0 s.wide k + n)) }

/-- A wide counter's value. -/
def State.counter (s : State) (block sel : Nat) : Nat := sparseGet 0 s.wide (wideKey block sel)

/-- Set a wide value outright (a last address, a gauge). -/
def State.setCounter (s : State) (block sel v : Nat) : State :=
  { s with wide := sparsePut 0 s.wide (wideKey block sel) v }

/-- Write to host memory; a write with the EP bit is counted as sent poisoned (R250, PCIE wide selection 0x03). -/
def State.hostWrite (s : State) (a : W64) (data : List Byte) (ep : Bool) : State :=
  (if ep then s.count blkPcie 0x03 1 else s).emit (.hostWrite a data ep)

/-- Hold an enable that arrives while its function shuts down; several held together count as one (R462). -/
def State.holdEnable (s : State) (f : HeldFunction) : State :=
  if s.pwr.enabling.contains f then s
  else ({ s with pwr := { s.pwr with enabling := s.pwr.enabling ++ [f] } }).count blkPwr 0x12 1

/-- A disable that arrives before the shut-down completes cancels the held enable (R462). -/
def State.cancelEnable (s : State) (f : HeldFunction) : State :=
  if s.pwr.enabling.contains f then
    ({ s with pwr := { s.pwr with enabling := s.pwr.enabling.filter (fun g => g != f) } }).count blkPwr 0x14 1
  else s

/-- A function begins to shut down (R462). -/
def State.beginShut (s : State) (f : HeldFunction) : State :=
  if s.pwr.shutting.contains f then s else { s with pwr := { s.pwr with shutting := s.pwr.shutting ++ [f] } }

/-- A function's shut-down is complete: whether a held enable starts it now, counted (R462). -/
def State.endShut (s : State) (f : HeldFunction) : Bool × State :=
  let s : State := { s with pwr := { s.pwr with shutting := s.pwr.shutting.filter (fun g => g != f) } }
  if s.pwr.enabling.contains f then
    (true, ({ s with pwr := { s.pwr with enabling := s.pwr.enabling.filter (fun g => g != f) } }).count blkPwr 0x13 1)
  else (false, s)

/-- Whether a function that shed stage 3 pauses is stopped: the stage is in force, or its shut-down still runs (R453, R462). -/
def State.pausedBy (s : State) (p : HeldFunction → Bool) : Bool := decide (3 ≤ s.pwr.shed) || s.pwr.shutting.any p
def State.rakePaused (s : State) (n : Nat) : Bool := s.pausedBy (fun f => match f with
  | .rake k => k.val == n
  | _ => false)
def State.digPaused (s : State) (n : Nat) : Bool := s.pausedBy (fun f => match f with
  | .digestUnit k => k.val == n
  | _ => false)
def State.sweepPaused (s : State) (n : Nat) : Bool := s.pausedBy (fun f => match f with
  | .prunerSweep k => k.val == n
  | _ => false)

/-- Set bits of a 32-bit event register. -/
def setBits (w : W32) (m : Nat) : W32 := w ||| BitVec.ofNat 32 m

/-- Put `v` at bits `hi` to `lo` of a register value under assembly. -/
def fieldVal (v lo : Nat) : Nat := v * 2 ^ lo

end Sys2Proof.Machine
end

