-- ==== Sys2Proof/Machine/Float.lean ====
section
/-! DEFINITION. The number formats (R61 to R93): codes to exact values, exact arithmetic, one rounding back. A value
is a sign, a natural and a power of two, so that sums and products are exact and every rounding is `toCode`. -/

namespace Sys2Proof.Machine

open Sys2Proof

/-- A value: NaN, an infinity, or (-1)^neg * m * 2^e. -/
inductive FV
  | nan
  | inf (neg : Bool)
  | fin (neg : Bool) (m : Nat) (e : Int)
deriving DecidableEq, Repr

/-- The layout of a floating-point format (the *Floating-point encodings* table): exponent and mantissa bits, bias,
whether it has infinities, its NaN code if it has one. -/
structure FloatFmt where
  ebits : Nat
  mbits : Nat
  bias  : Nat
  infs  : Bool
  nan   : Option Nat
deriving DecidableEq, Repr

/-- Format codes (R61). -/
def fE4M3 : Nat := 1
def fE5M2 : Nat := 2
def fE2M1 : Nat := 3
def fInt8 : Nat := 4
def fBF16 : Nat := 5
def fFP16 : Nat := 6
def fFP32 : Nat := 7
def fInt32 : Nat := 8
def fFP64 : Nat := 9

/-- Whether a format code is one of the nine (R61). -/
def fmtKnown (f : Nat) : Bool := decide (1 ≤ f ∧ f ≤ 9)

/-- The floating layout of a format code; none for the integers. -/
def floatFmt : Nat → Option FloatFmt
  | 1 => some { ebits := 4, mbits := 3, bias := 7, infs := false, nan := some 0x7F }
  | 2 => some { ebits := 5, mbits := 2, bias := 15, infs := true, nan := some 0x7E }
  | 3 => some { ebits := 2, mbits := 1, bias := 1, infs := false, nan := none }
  | 5 => some { ebits := 8, mbits := 7, bias := 127, infs := true, nan := some 0x7FC0 }
  | 6 => some { ebits := 5, mbits := 10, bias := 15, infs := true, nan := some 0x7E00 }
  | 7 => some { ebits := 8, mbits := 23, bias := 127, infs := true, nan := some 0x7FC0_0000 }
  | 9 => some { ebits := 11, mbits := 52, bias := 1023, infs := true, nan := some 0x7FF8_0000_0000_0000 }
  | _ => none

/-- The bits of one element of a format. -/
def fmtBits : Nat → Nat
  | 3 => 4
  | 5 => 16
  | 6 => 16
  | 7 => 32
  | 8 => 32
  | 9 => 64
  | _ => 8

/-- The bytes that `n` dense elements take: E2M1 packs two to a byte (R69). -/
def fmtBytes (f n : Nat) : Nat := (n * fmtBits f + 7) / 8

/-- The value of a floating code, subnormals at their exact value (R544's decoding). -/
def FloatFmt.decodeExact (f : FloatFmt) (c : Nat) : FV :=
  let neg := bitOf c (f.ebits + f.mbits)
  let ex := bitsOf c (f.ebits + f.mbits - 1) f.mbits
  let ma := c % 2 ^ f.mbits
  let top := 2 ^ f.ebits - 1
  if ex = top ∧ f.infs then (if ma = 0 then .inf neg else .nan)
  else if ex = top ∧ f.nan.isSome ∧ ma = 2 ^ f.mbits - 1 then .nan
  else if ex = 0 then .fin neg ma (1 - (f.bias : Int) - f.mbits)
  else .fin neg (2 ^ f.mbits + ma) ((ex : Int) - f.bias - f.mbits)

/-- The value of a code read as an input: a subnormal is zero with its sign (R71). -/
def FloatFmt.decode (f : FloatFmt) (c : Nat) : FV :=
  if bitsOf c (f.ebits + f.mbits - 1) f.mbits = 0 then .fin (bitOf c (f.ebits + f.mbits)) 0 0
  else f.decodeExact c

/-- An integer as a value. -/
def intFV (i : Int) : FV := .fin (decide (i < 0)) i.natAbs 0

/-- The value of an element of any format (R65, R66, R71). -/
def decodeElem (fmt c : Nat) : FV :=
  match floatFmt fmt with
  | some f => f.decode c
  | none => intFV (signed (fmtBits fmt) c)

/-- The value of an element for a digest, subnormals exact (R544). -/
def decodeElemExact (fmt c : Nat) : FV :=
  match floatFmt fmt with
  | some f => f.decodeExact c
  | none => intFV (signed (fmtBits fmt) c)

/-- A significand cut to `p` bits, to nearest with ties to even, and the exponent that goes with it (R74). -/
def roundSig (m : Nat) (e : Int) (p : Nat) : Nat × Int :=
  let len := m.log2 + 1
  if len ≤ p then (m * 2 ^ (p - len), e - (p - len : Nat))
  else
    let k := len - p
    let q := m / 2 ^ k
    let r := m % 2 ^ k
    let h := 2 ^ (k - 1)
    let q1 := if r > h ∨ (r = h ∧ q % 2 = 1) then q + 1 else q
    if q1 = 2 ^ p then (2 ^ (p - 1), e + k + 1) else (q1, e + k)

/-- The sign bit of a format, where set. -/
def FloatFmt.sign (f : FloatFmt) (neg : Bool) : Nat := if neg then 2 ^ (f.ebits + f.mbits) else 0

/-- The largest finite code of a format, positive. -/
def FloatFmt.largest (f : FloatFmt) : Nat :=
  if f.infs then (2 ^ f.ebits - 2) * 2 ^ f.mbits + (2 ^ f.mbits - 1)
  else if f.nan.isSome then 2 ^ (f.ebits + f.mbits) - 2
  else 2 ^ (f.ebits + f.mbits) - 1

/-- A value rounded to a format's code (R72 to R77); `sat` is the SAT flag. A format with neither infinity nor NaN
(E2M1) always saturates; it has no NaN code, and its NaN blocks write 0 (R93). -/
def FloatFmt.encode (f : FloatFmt) (sat : Bool) : FV → Nat
  | .nan => f.nan.getD 0
  | .inf neg =>
    if sat || f.nan.isNone then f.sign neg + f.largest
    else if f.infs then f.sign neg + (2 ^ f.ebits - 1) * 2 ^ f.mbits
    else f.nan.getD 0
  | .fin neg m e =>
    if m = 0 then f.sign neg
    else
      let (q, x) := roundSig m e (f.mbits + 1)
      let ex := x + f.mbits + f.bias
      if ex < 1 then f.sign neg
      else
        let code := ex.toNat * 2 ^ f.mbits + (q - 2 ^ f.mbits)
        if code ≤ f.largest then f.sign neg + code
        else if sat || f.nan.isNone then f.sign neg + f.largest
        else if f.infs then f.sign neg + (2 ^ f.ebits - 1) * 2 ^ f.mbits
        else f.nan.getD 0

/-- A value to the nearest integer, ties to even (R90). -/
def nearestInt (neg : Bool) (m : Nat) (e : Int) : Int :=
  let q : Nat :=
    if 0 ≤ e then m * 2 ^ e.toNat
    else
      let k := (-e).toNat
      let q := m / 2 ^ k
      let r := m % 2 ^ k
      if 2 * r > 2 ^ k ∨ (2 * r = 2 ^ k ∧ q % 2 = 1) then q + 1 else q
  if neg then -(q : Int) else q

/-- An integer kept within `n` bits (R90, R91). -/
def clampInt (n : Nat) (i : Int) : Int :=
  if i < -(2 ^ (n - 1) : Int) then -(2 ^ (n - 1) : Int)
  else if i > 2 ^ (n - 1) - 1 then 2 ^ (n - 1) - 1 else i

/-- A value as an element of any format: floats by `encode`, integers nearest and saturating, NaN giving 0 (R90). -/
def encodeElem (fmt : Nat) (sat : Bool) (v : FV) : Nat :=
  match floatFmt fmt with
  | some f => f.encode sat v
  | none =>
    let n := fmtBits fmt
    match v with
    | .nan => 0
    | .inf neg => wrapTo n (if neg then -(2 ^ (n - 1) : Int) else 2 ^ (n - 1) - 1)
    | .fin neg m e =>
      -- an exponent past 2^1100 is past every format's range
      if m ≠ 0 ∧ e > 1100 then wrapTo n (if neg then -(2 ^ (n - 1) : Int) else 2 ^ (n - 1) - 1)
      else wrapTo n (clampInt n (nearestInt neg m e))

/-- A conversion of one element between formats (R90). -/
def convertElem (src dst : Nat) (sat : Bool) (c : Nat) : Nat := encodeElem dst sat (decodeElem src c)

/-! ### Exact arithmetic on values (R73, R78) -/

/-- A signed significand at a lower exponent. -/
def alignSig (neg : Bool) (m : Nat) (e low : Int) : Int :=
  let v : Int := m * 2 ^ (e - low).toNat
  if neg then -v else v

def FV.neg : FV → FV
  | .nan => .nan
  | .inf n => .inf (!n)
  | .fin n m e => .fin (!n) m e

def FV.abs : FV → FV
  | .nan => .nan
  | .inf _ => .inf false
  | .fin _ m e => .fin false m e

def FV.isNeg : FV → Bool
  | .nan => false
  | .inf n => n
  | .fin n _ _ => n

def FV.isZero : FV → Bool
  | .fin _ 0 _ => true
  | _ => false

def FV.isFin : FV → Bool
  | .fin _ _ _ => true
  | _ => false

/-- A sum: exact; opposite infinities give NaN; a cancelled sum is +0, and -0 only from two -0 (R73, R78). -/
def FV.add : FV → FV → FV
  | .nan, _ => .nan
  | _, .nan => .nan
  | .inf a, .inf b => if a = b then .inf a else .nan
  | .inf a, .fin _ _ _ => .inf a
  | .fin _ _ _, .inf b => .inf b
  | .fin na ma ea, .fin nb mb eb =>
    if ma = 0 ∧ mb = 0 then .fin (na && nb) 0 0
    else if ma = 0 then .fin nb mb eb
    else if mb = 0 then .fin na ma ea
    else
      let low := min ea eb
      let t := alignSig na ma ea low + alignSig nb mb eb low
      .fin (decide (t < 0)) t.natAbs low

def FV.sub (a b : FV) : FV := a.add b.neg

/-- A product: exact, with the exclusive-or of the signs; infinity times zero is NaN (R73, R78). -/
def FV.mul : FV → FV → FV
  | .nan, _ => .nan
  | _, .nan => .nan
  | .inf a, .inf b => .inf (a != b)
  | .inf a, .fin nb mb _ => if mb = 0 then .nan else .inf (a != nb)
  | .fin na ma _, .inf b => if ma = 0 then .nan else .inf (na != b)
  | .fin na ma ea, .fin nb mb eb => .fin (na != nb) (ma * mb) (ea + eb)

/-- A quotient to enough bits that a rounding of it is the rounding of the exact one: the last bit is set when a
remainder is left. A finite value over zero is infinite; 0/0 and inf/inf are NaN (R78). -/
def FV.div : FV → FV → FV
  | .nan, _ => .nan
  | _, .nan => .nan
  | .inf _, .inf _ => .nan
  | .inf a, .fin nb _ _ => .inf (a != nb)
  | .fin na _ _, .inf b => .fin (na != b) 0 0
  | .fin na ma ea, .fin nb mb eb =>
    if mb = 0 then (if ma = 0 then .nan else .inf (na != nb))
    else if ma = 0 then .fin (na != nb) 0 0
    else
      let k := 130 + mb.log2
      let n := ma * 2 ^ k
      .fin (na != nb) (2 * (n / mb) + bnat (n % mb != 0)) (ea - eb - k - 1)

/-- The integer square root, found bit by bit from bit `i` - 1 down. -/
def isqrt (n : Nat) : Nat → Nat → Nat
  | 0, r => r
  | i + 1, r => if (r + 2 ^ i) * (r + 2 ^ i) ≤ n then isqrt n i (r + 2 ^ i) else isqrt n i r

/-- A square root to enough bits, the last set when inexact; NaN below zero, -0 of -0 (R78). -/
def FV.sqrt : FV → FV
  | .nan => .nan
  | .inf n => if n then .nan else .inf false
  | .fin n m e =>
    if m = 0 then .fin n 0 0
    else if n then .nan
    else
      let odd := e % 2 = 1
      let m1 := (if odd then 2 * m else m) * 2 ^ 256
      let e1 := (if odd then e - 1 else e) / 2 - 128
      let r := isqrt m1 (m1.log2 / 2 + 1) 0
      .fin false (2 * r + bnat (r * r != m1)) (e1 - 1)

/-- Whether one value is below another; neither is NaN. Zeros of either sign are equal. -/
def FV.lt : FV → FV → Bool
  | .nan, _ => false
  | _, .nan => false
  | .inf a, .inf b => a && !b
  | .inf a, .fin _ _ _ => a
  | .fin _ _ _, .inf b => !b
  | .fin na ma ea, .fin nb mb eb =>
    let low := min ea eb
    decide (alignSig na ma ea low < alignSig nb mb eb low)

def FV.eq (a b : FV) : Bool :=
  match a, b with
  | .nan, _ => false
  | _, .nan => false
  | a, b => !a.lt b && !b.lt a

/-! ### Arithmetic on words of a format -/

/-- The formats FP32 and FP64. -/
def fp32 : FloatFmt := { ebits := 8, mbits := 23, bias := 127, infs := true, nan := some 0x7FC0_0000 }
def fp64 : FloatFmt := { ebits := 11, mbits := 52, bias := 1023, infs := true, nan := some 0x7FF8_0000_0000_0000 }

/-- The compute format of a unit: FP64 or FP32. -/
def cfmt (d : Bool) : FloatFmt := if d then fp64 else fp32

/-- One operation of two operands in a format: decode, exact, one rounding. -/
def FloatFmt.bin (f : FloatFmt) (op : FV → FV → FV) (a b : Nat) : Nat := f.encode false (op (f.decode a) (f.decode b))

def FloatFmt.addW (f : FloatFmt) (a b : Nat) : Nat := f.bin FV.add a b
def FloatFmt.subW (f : FloatFmt) (a b : Nat) : Nat := f.bin FV.sub a b
def FloatFmt.mulW (f : FloatFmt) (a b : Nat) : Nat := f.bin FV.mul a b
def FloatFmt.divW (f : FloatFmt) (a b : Nat) : Nat := f.bin FV.div a b
def FloatFmt.sqrtW (f : FloatFmt) (a : Nat) : Nat := f.encode false (f.decode a).sqrt
/-- A product and a sum with one rounding. -/
def FloatFmt.fmaW (f : FloatFmt) (a b c : Nat) : Nat :=
  f.encode false (((f.decode a).mul (f.decode b)).add (f.decode c))

def FloatFmt.isNaNW (f : FloatFmt) (a : Nat) : Bool := f.decode a == .nan
def FloatFmt.isFinW (f : FloatFmt) (a : Nat) : Bool := (f.decode a).isFin

/-- A word of one format converted to another, without SAT. -/
def FloatFmt.toFmt (f g : FloatFmt) (a : Nat) : Nat := g.encode false (f.decode a)

/-! ### Block scales (R80 to R93) -/

/-- The exponent an E8M0 code stands for; none for NaN (R80). -/
def scaleExp (c : Nat) : Option Int := if c = 0xFF then none else some ((c : Int) - 127)

/-- A value scaled by a power of two, exactly. -/
def FV.scale (v : FV) (k : Int) : FV :=
  match v with
  | .fin n m e => .fin n m (e + k)
  | v => v

/-- The exponent of the largest finite value of the formats that carry block scales (R93). -/
def scaleMax : Nat → Int
  | 1 => 8
  | 2 => 15
  | _ => 2

/-- The floor of log2 of a value that is not zero. -/
def FV.log2 : FV → Int
  | .fin _ m e => (m.log2 : Int) + e
  | _ => 0

/-- One block of a block-scaled conversion (R93): the scale byte and the element codes. -/
def scaleBlock (dst : Nat) (vs : List FV) : Nat × List Nat :=
  if vs.any (fun v => !v.isFin) then (0xFF, vs.map (fun _ => 0))
  else
    let amax := vs.foldl (fun a v => if a.lt v.abs then v.abs else a) (.fin false 0 0)
    if amax.isZero then (0x7F, vs.map (fun v => encodeElem dst true v))
    else
      let e0 := amax.log2 - scaleMax dst
      let e := if e0 < -127 then -127 else if e0 > 127 then 127 else e0
      ((e + 127).toNat, vs.map (fun v => encodeElem dst true (v.scale (-e))))

/-- A list cut into runs of `n`, by fuel. -/
def chunks {α : Type} (n : Nat) : Nat → List α → List (List α)
  | 0, _ => []
  | _ + 1, [] => []
  | k + 1, l => l.take n :: chunks n k (l.drop n)

/-- A row of values in blocks of `bs` elements: scales and codes (R93). -/
def scaleRow (dst bs : Nat) (vs : List FV) : List Nat × List Nat :=
  let rs := (chunks bs vs.length vs).map (scaleBlock dst)
  (rs.map Prod.fst, rs.flatMap Prod.snd)

/-! ### Elements in bytes -/

/-- Pack 4-bit codes two to a byte, the first in the low bits (R69). -/
def packNibbles : List Nat → List Byte
  | [] => []
  | [a] => [BitVec.ofNat 8 (a % 16)]
  | a :: b :: t => BitVec.ofNat 8 (a % 16 + 16 * (b % 16)) :: packNibbles t

/-- The 4-bit codes of bytes. -/
def unpackNibbles (bs : List Byte) : List Nat := bs.flatMap (fun b => [b.toNat % 16, b.toNat / 16])

/-- Dense element codes of a format from bytes. -/
def elemsOf (fmt : Nat) (bs : List Byte) : List Nat :=
  if fmt = 3 then unpackNibbles bs
  else (chunks (fmtBits fmt / 8) bs.length bs).map natOf

/-- Dense element codes of a format to bytes. -/
def bytesOfElems (fmt : Nat) (cs : List Nat) : List Byte :=
  if fmt = 3 then packNibbles cs
  else cs.flatMap (fun c => bytesOf (fmtBits fmt / 8) c)

end Sys2Proof.Machine
end

