-- ==== Sys2Proof/Machine/Operands.lean ====
section
/-! DEFINITION. The operand forms: fields of descriptors, extensions, messages and ring entries, and the addresses
they give. Offsets are byte offsets of the manual's tables. -/

namespace Sys2Proof.Machine

open Sys2Proof

/-- `n` bytes of a block at byte `off`, as a number (R6). -/
def fld (d : Block) (off n : Nat) : Nat := d.toNat / 2 ^ (8 * off) % 2 ^ (8 * n)

/-- Bits `hi` to `lo` of the field of `n` bytes at byte `off`. -/
def fldBits (d : Block) (off n hi lo : Nat) : Nat := bitsOf (fld d off n) hi lo

/-- One bit of a byte field. -/
def fldBit (d : Block) (off i : Nat) : Bool := bitOf (fld d off 1) i

/-! ### The header (R202) -/

def dOpcode (d : Block) : Nat := fld d 0 1
def dVer (d : Block) : Nat := fldBits d 1 1 3 0
def dIdempotent (d : Block) : Bool := fldBit d 2 0
def dDigest (d : Block) : Bool := fldBit d 2 1
def dInterrupt (d : Block) : Bool := fldBit d 2 2
def dLayer (d : Block) : W16 := BitVec.ofNat 16 (fld d 4 2)
def dOper (d : Block) : W16 := BitVec.ofNat 16 (fld d 6 2)
def dTag (d : Block) : W32 := BitVec.ofNat 32 (fld d 8 4)
def dSpace (d : Block) : Nat := fld d 12 1

/-! ### The matrix and accumulator body (R208) -/

def dA (d : Block) : Nat := fld d 16 6
def dB (d : Block) : Nat := fld d 22 6
def dOut (d : Block) : Nat := fld d 28 6
def dAux (d : Block) : Nat := fld d 34 6
def dM (d : Block) : Nat := fldBits d 40 2 10 0
def dN (d : Block) : Nat := fldBits d 42 2 10 0
def dK (d : Block) : Nat := fld d 44 3
def dFmtA (d : Block) : Nat := fldBits d 47 1 5 0
def dFmtB (d : Block) : Nat := fldBits d 48 1 5 0
def dFmtOut (d : Block) : Nat := fldBits d 49 1 5 0
def dAct (d : Block) : Nat := fld d 50 1
def dGroup (d : Block) : Nat := fldBits d 51 1 3 0
def dDF (d : Block) : Nat := fldBits d 51 1 5 4
def dBias (d : Block) : Nat := fldBits d 51 1 7 6
def dTileCount (d : Block) : Nat := fldBits d 52 4 27 24
/-- The tile list: TILE_COUNT entries of three bits, in order (R96, R208). -/
def dTiles (d : Block) : List Nat := (upto (min (dTileCount d) 8)).map (fun t => bitsOf (fld d 52 4) (3 * t + 2) (3 * t))
def dMflag (d : Block) (i : Nat) : Bool := bitOf (fld d 56 2) i
def mfStart (d : Block) : Bool := dMflag d 0
def mfEnd (d : Block) : Bool := dMflag d 1
def mfSat (d : Block) : Bool := dMflag d 2
def mfOutBlk (d : Block) : Bool := dMflag d 3
def mfABlk (d : Block) : Bool := dMflag d 4
def mfBBlk (d : Block) : Bool := dMflag d 5
def mfBlk32 (d : Block) : Bool := dMflag d 6
def mfScales (d : Block) : Bool := dMflag d 7
def mfAux (d : Block) : Bool := dMflag d 8
def mfBind (d : Block) : Bool := dMflag d 9
def mfAcc (d : Block) : Bool := dMflag d 10
def dBindIdx (d : Block) : Nat := fld d 58 2
def dSlices (d : Block) : Nat := fldBits d 60 1 3 0

/-- The block size of a command's block scales (R81, R208). -/
def blkSize (b32 : Bool) : Nat := if b32 then 32 else 16

/-! ### Rings (R195) -/

/-- The address of entry `i` of a ring of 2^lg entries of `sz` bytes. -/
def ringAddr (base lg sz i : Nat) : Nat := base + (i % 2 ^ lg) * sz

/-! ### Addresses (R234, R236, R239) -/

def hbmEnd : Nat := 0x78_0000_0000
def hbmCtxEnd : Nat := 0x77_C000_0000
def clusterMemBase : Nat := 0x100_0000_0000
def coreBase : Nat := 0x200_0000_0000
def regWindow : Nat := 0x300_0000_0000

/-- Whether an address lies in the HBM data range (R234). -/
def isHbm (a : Nat) : Bool := decide (a < hbmEnd)

/-- The stack of an HBM address (R22, R239). -/
def stackOf (a : Nat) : Nat := a / 1024 % 8

/-- The core window of an address: core and offset (R234). -/
def coreOf (a : Nat) : Option (Nat × Nat) :=
  if coreBase ≤ a ∧ a < coreBase + 128 * 0x40_0000 then some ((a - coreBase) / 0x40_0000, (a - coreBase) % 0x40_0000)
  else none

/-- The cluster memory of an address: cluster and offset (R234). -/
def clusterOf (a : Nat) : Option (Nat × Nat) :=
  if clusterMemBase ≤ a ∧ a < clusterMemBase + 8 * 0x100_0000 then
    some ((a - clusterMemBase) / 0x100_0000, (a - clusterMemBase) % 0x100_0000)
  else none

/-- The device address of a core store offset (R234). -/
def storeAddr (core off : Nat) : Nat := coreBase + core * 0x40_0000 + off

def ceilDiv (a b : Nat) : Nat := (a + b - 1) / b

/-- The device address of accumulator element (i, j) of a tile: 4 * (128 i + j) into the tile (R139). -/
def tileAddr (core tile i j : Nat) : Nat := coreBase + core * 0x40_0000 + 0x20_0000 + tile * 0x1_0000 + 4 * (128 * i + j)

/-- Whether `n` bytes from `a` lie within one range that contexts reach (R234, R264). -/
def inCtxRange (a n : Nat) : Bool :=
  if n = 0 then true
  else
    let z := a + n - 1
    decide (z < hbmCtxEnd)
    || (match clusterOf a, clusterOf z with
        | some (c, _), some (d, _) => c == d
        | _, _ => false)
    || (match coreOf a, coreOf z with
        | some (c, o), some (d, p) => c == d && decide (o < 0x20_0000 ∧ p < 0x20_0000)
        | _, _ => false)

/-- A 64-bit address field of kind 3: chip, address on that device, and whether bits [63:60] are clear (R236). -/
def gChip (a : Nat) : BitVec 12 := BitVec.ofNat 12 (bitsOf a 59 48)
def gAddr (a : Nat) : Nat := a % 2 ^ 48
def gOk (a : Nat) : Bool := bitsOf a 63 60 == 0

end Sys2Proof.Machine
end

