-- ==== Sys2Proof/Machine/Flags.lean ====
section
/-! DEFINITION. The codes and flags: completion status codes (R229), RFLAGS (R226), event register bits, check
codes (CRC-32C and CRC-64), the active configuration set, the log. -/

namespace Sys2Proof.Machine

open Sys2Proof

/-! ### Completion status codes (R229) -/

def stOk : Byte := 0x00
def stOkFrozen : Byte := 0x01
def stOkEscalated : Byte := 0x02
def stOkNan : Byte := 0x03
def stOkSkipped : Byte := 0x04
def stBadOpcode : Byte := 0x10
def stBadVersion : Byte := 0x11
def stBadShape : Byte := 0x12
def stBadFormat : Byte := 0x13
def stNotPermitted : Byte := 0x14
def stRegionFault : Byte := 0x15
def stAccConflict : Byte := 0x16
def stPoison : Byte := 0x17
def stWaitTimeout : Byte := 0x18
def stCheckMismatch : Byte := 0x19
def stPeerLost : Byte := 0x20
def stReduceMismatch : Byte := 0x21
def stCollTimeout : Byte := 0x22
def stStepDelayed : Byte := 0x23
def stGroupAbsent : Byte := 0x24
def stNoRoute : Byte := 0x25
def stSchedRestart : Byte := 0x30
def stAbortedFrost : Byte := 0x31
def stAbortedReset : Byte := 0x32
def stAbortedContext : Byte := 0x33
def stQuarantined : Byte := 0x34
def stVersionRefused : Byte := 0x35
def stGraftDeferred : Byte := 0x36

/-- The numerically highest of two codes (R230). -/
def worst (a b : Byte) : Byte := if a.toNat < b.toNat then b else a

/-! ### RFLAGS (R223, R226) -/

def rfPhase : Byte := 0x01
def rfDigest : Byte := 0x02
def rfAccWrap : Byte := 0x04
def rfPoison : Byte := 0x08
def rfNan : Byte := 0x10
def rfReissued : Byte := 0x20

/-- A flag where a condition holds. -/
def flagIf (b : Bool) (f : Byte) : Byte := if b then f else 0

/-- Raise the status of an operation to at least `st`. -/
def Op.raise (o : Op) (st : Byte) : Op := { o with status := worst o.status st }
/-- Set flags of an operation. -/
def Op.flag (o : Op) (f : Byte) : Op := { o with rflags := o.rflags ||| f }

/-! ### Check codes -/

/-- One byte into a reflected CRC register. -/
def crcByte (poly : Nat) : Nat → Nat → Nat
  | 0, r => r
  | k + 1, r => crcByte poly k (if r % 2 = 1 then (r / 2) ^^^ poly else r / 2)

/-- A reflected CRC register after bytes. -/
def crcBytes (poly : Nat) (r : Nat) (bs : List Byte) : Nat :=
  bs.foldl (fun r b => crcByte poly 8 (r ^^^ b.toNat)) r

/-- CRC-32C: polynomial 0x1EDC_6F41 reflected, initial and final 0xFFFF_FFFF (R300). -/
def crc32c (bs : List Byte) : Nat := crcBytes 0x82F6_3B78 0xFFFF_FFFF bs ^^^ 0xFFFF_FFFF

/-! ### The configuration sets (R435 to R437) -/

/-- The reset values of CFG_PGROUP_n words W0 to W13; the words above are reserved (R367). -/
def pgroupReset : Nat → Nat
  | 2 => 0x3F66_6666
  | 3 => 0x3F7F_BE77
  | 4 => 0x322B_CC77
  | 5 => 0x3F80_0000
  | 6 => 0x4120_0000
  | 10 => 0x0000_0001
  | 11 => 0x3DCC_CCCD
  | 12 => 0x0001_0004
  | 13 => 0x3C23_D70A
  | _ => 0

/-- Whether a window offset is a register with shadowed fields, with the mask of those fields and its reset value
(R435 and the register maps). -/
def shField (off : Nat) : Option (Nat × Nat) :=
  if off = 0x1_0100 then some (0xF_FFFF, 0x4E20)
  else if off = 0x1_0200 then some (1, 0)
  else if off = 0x9_0004 then some (0xFFFF, 1)
  else if 0x1_4000 ≤ off ∧ off < 0x1_8000 ∧ off % 4 = 0 then
    let w := off % 0x40 / 4
    if w = 12 then some (0xFF_007F, pgroupReset 12)
    else if w < 14 then some (0xFFFF_FFFF, pgroupReset w) else none
  else if 0x100_0000 ≤ off ∧ off < 0x180_0000 ∧ off % 0x10_0000 = 0x100 then some (3, 1)
  else if 0x200_0000 ≤ off ∧ off < 0x220_0000 ∧ off % 0x4_0000 = 0x100 then some (0xFF01, 0x1801)
  else none

/-- What a shadowed register reads as when nothing has been written to it. -/
def shReset (off : Nat) : W32 := BitVec.ofNat 32 (((shField off).map Prod.snd).getD 0)

/-- A register of a configuration set: the listed value, else the reset value. -/
def cfgGet : List (Nat × W32) → Nat → W32
  | [], off => shReset off
  | (k, v) :: t, off => if k = off then v else cfgGet t off

/-- Write a register of a configuration set, in the canonical form (no entry at its reset value). -/
def cfgPut : List (Nat × W32) → Nat → W32 → List (Nat × W32)
  | [], off, v => if v = shReset off then [] else [(off, v)]
  | (k, w) :: t, off, v =>
    if off < k then (if v = shReset off then (k, w) :: t else (off, v) :: (k, w) :: t)
    else if off = k then (if v = shReset off then t else (off, v) :: t)
    else (k, w) :: cfgPut t off v

/-- An active configuration value (R435). -/
def State.cfg (s : State) (off : Nat) : Nat := (cfgGet s.regs.active off).toNat

/-- The active words of a parameter group (R367). -/
def State.pgroup (s : State) (g : Nat) : List W32 :=
  (upto 16).map (fun w => cfgGet s.regs.active (0x1_4000 + g * 0x40 + 4 * w))

/-! ### Voted fields (R569 to R571) -/

/-- The value a unit uses: the majority, or the reset value when all three copies differ. -/
def Triple.vote (t : Triple) (rst : W16) : W16 :=
  if t.c0 = t.c1 ∨ t.c0 = t.c2 then t.c0 else if t.c1 = t.c2 then t.c1 else rst

/-- PWR_MODE.MODE as used: 0b11 acts as 0b10 (R571). -/
def State.modeReq (s : State) : Nat :=
  let v := (s.votes.mode.vote 2).toNat % 4
  if v = 3 then 2 else v

def State.linkOn (s : State) (n : Nat) : Bool := (unitAt (.of 0) s.votes.linkEnable n).vote 0 != 0
def State.allowX2 (s : State) (n : Nat) : Bool := (unitAt (.of 1) s.votes.linkAllowX2 n).vote 1 != 0

/-! ### Interrupts and the log (R470, R481, R606) -/

/-- Raise an MSI-X vector (R470). -/
def State.msix (s : State) (v : Nat) : State := s.emit (.msix v)

def sevWarn : Byte := 2
def sevError : Byte := 3
def sevFatal : Byte := 4

/-- Put an entry in the log ring: newest first, at most 2,048 (R481). WARN and above always, below only where
LOG_TRACE_EN enables the class (R482); ERROR and above raise vector 65 (R470). -/
def State.logEntry (s : State) (source severity : Byte) (trace : Nat) (args : List Nat) : State :=
  if severity.toNat < 2 ∧ !bitOf (s.cfg 0x9_0004) (trace / 0x1000 % 16) then s
  else
    let e : LogEntry := { time := s.time.now, seq := s.log.head, source := source, severity := severity,
                          trace := BitVec.ofNat 16 trace, args := args.map (BitVec.ofNat 32) }
    let s := { s with log := { head := s.log.head + 1, ring := (e :: s.log.ring).take 2048 } }
    if severity.toNat ≥ 3 then s.msix 65 else s

/-- SOURCE codes of the log: processors as PWR_REFUSE.INDEX, 0x40 for AON hardware (R481). -/
def srcSecp : Byte := 0x00
def srcPmp : Byte := 0x01
def srcDmp : Byte := 0x02
def srcCsp (n : Nat) : Byte := BitVec.ofNat 8 (8 + n)
def srcAon : Byte := 0x40

/-- A processor as PWR_REFUSE.INDEX encodes it. -/
def procCode : Proc → Nat
  | .secp => 0
  | .pmp => 1
  | .dmp => 2
  | .csp n => 8 + n.val

end Sys2Proof.Machine
end

