-- ==== Sys2Proof/Machine/Access.lean ====
section
/-! DEFINITION. Reading and writing device memory: the homes with their counters, the cluster caches, the
performance counters that accesses advance, and the region check. An access acts whole (R20, R276; log entry 69). -/

namespace Sys2Proof.Machine

open Sys2Proof

/-! ### Performance counters (R535 to R541) -/

/-- Whom an event counts toward (R539): core, cluster, and the command with its context and tags. -/
structure Who where
  core    : Option Nat
  cluster : Option Nat
  ctx     : Option Nat
  idx     : W32
  layer   : W16
  oper    : W16
deriving DecidableEq, Repr

/-- An event that no command caused, at a cluster. -/
def whoCluster (n : Nat) : Who := { core := none, cluster := some n, ctx := none, idx := 0, layer := 0, oper := 0 }

/-- The command that an operation runs for. -/
def Op.who (o : Op) : Who :=
  { core := o.core, cluster := some o.cluster, ctx := some o.ctx, idx := o.idx, layer := dLayer o.desc,
    oper := dOper o.desc }

/-- The key of a performance counter: its WIDE_SEL value (R536). -/
def perfKey (scope index counter : Nat) : Nat := scope * 2 ^ 28 + index * 2 ^ 16 + counter

/-- The scopes that keep a counter (R538): GLOBAL, CLUSTER, CORE, CONTEXT, COMMAND, TAGGED. -/
def perfScopes (counter : Nat) : List Nat :=
  if counter ≤ 0x0F then [0, 1, 2, 3, 4, 5]
  else if counter ≤ 0x12 then [0, 1, 3, 5]
  else if counter = 0x13 then [0, 1, 2, 3, 5]
  else if counter ≤ 0x16 then [0, 1, 3]
  else if counter = 0x17 then [0, 1, 2]
  else if counter ≤ 0x19 then [0, 1, 3]
  else []

/-- Whether a command passes the TAGGED filters (R540). -/
def State.tagPass (s : State) (w : Who) : Bool :=
  let f := s.regs.perfFilter.toNat
  let t := s.regs.perfTag.toNat
  let o := s.regs.perfTagOp.toNat
  w.ctx.isSome
  && (!bitOf f 6 || w.ctx == some (bitsOf f 5 0))
  && ((w.layer.toNat &&& (t / 65536)) == ((t % 65536) &&& (t / 65536)))
  && ((w.oper.toNat &&& (o / 65536)) == ((o % 65536) &&& (o / 65536)))

/-- The index at which a scope counts an event, if it does. -/
def State.perfIndex (s : State) (w : Who) : Nat → Option Nat
  | 0 => some 0
  | 1 => w.cluster
  | 2 => w.core
  | 3 => w.ctx
  | 4 =>
    match w.core with
    | some c => if (s.core c).tagCtx = w.ctx ∧ w.ctx ≠ none ∧ (s.core c).tagIdx = w.idx then some c else none
    | none => none
  | 5 => if s.tagPass w then w.cluster else none
  | _ => none

/-- Add to one performance counter, saturating. -/
def perfBump (p : List (Nat × Nat)) (k n : Nat) : List (Nat × Nat) := sparsePut 0 p k (satAt max64 (sparseGet 0 p k + n))

/-- Count an event at every scope that keeps it, saturating (R538, R539); nothing advances while a Frost holds the device. -/
def State.perfAdd (s : State) (w : Who) (counter n : Nat) : State :=
  { s with perf :=
      if s.frost.phase = .frozen ∨ n = 0 then s.perf
      else (perfScopes counter).foldl (fun p sc =>
        match s.perfIndex w sc with
        | some i => perfBump p (perfKey sc i counter) n
        | none => p) s.perf }

/-- Zero every counter of a set: a scope and an index. -/
def State.perfClear (s : State) (scope index : Nat) : State :=
  { s with perf := s.perf.filter (fun e => !decide (e.1 / 65536 = scope * 4096 + index)) }

/-! ### The homes -/

/-- Bytes read, with the poisoned granules among those they lie in. -/
structure Loaded where
  bytes : List Byte
  bad   : List Nat
deriving DecidableEq, Repr

/-- The HBM controller's block that holds a granule, where one does. -/
def stackBlk (g : Nat) : Nat := blkHbm (stackOf (32 * g))

/-- Who reaches device memory: a unit of a cluster, through its crossbar (R18), for a command where one causes it; the Pruner of a stack, with a direct port to it (R21);
any other unit, through its own Trellis port (R19). -/
inductive Via
  | cluster (n : Nat) (who : Option Who := none)
  | pruner (n : Nat)
  | fabric
deriving DecidableEq, Repr

/-- Whether the Trellis carries an access to an address (R18, R21): not to the core stores, tiles and memory of the unit's own
cluster, nor to the Pruner's own stack. -/
def onTrellis (v : Via) (a : Nat) : Bool :=
  match v with
  | .cluster n _ => !((match coreOf a with
      | some (k, _) => k / 16 == n
      | none => false) || (match clusterOf a with
      | some (m, _) => m == n
      | none => false))
  | .pruner n => !(isHbm a && stackOf a == n)
  | .fabric => true

/-- The Trellis has carried poisoned data: TRL_EVENT.POISON_FWD. -/
def State.forwardPoison (s : State) : State := { s with regs := { s.regs with trlEvent := setBits s.regs.trlEvent 2 } }

/-- Note poisoned granules delivered to a reader: POISON_READ of their stacks (R254), TRL_EVENT.POISON_FWD. -/
def State.notePoison (s : State) (v : Via) (bad : List Nat) : State :=
  bad.foldl (fun s g =>
    let s := if isHbm (32 * g) then s.count (stackBlk g) 0x05 1 else s
    if onTrellis v (32 * g) then s.forwardPoison else s) s

/-- Bits of HBM_ERR_STAT. -/
def State.errBit (s : State) (n bit : Nat) : State := s.modHbm n (fun h => { h with errStat := setBits h.errStat (2 ^ bit) })

/-- What a demand read of an HBM sector finds beside its data (R243, R251, R254), which no rule gives: the stack's severity (1
corrected, 2 uncorrected) and the symbols that the outer code corrected (1, 2), from one free value (log entry 70). -/
def State.readSector (s : State) (k : Nat) : State :=
  let v := Config.readError s.free
  let n := stackOf (64 * k)
  let inner := v % 4 == 1 || v % 4 == 2
  let outer := v / 4 % 4 == 1 || v / 4 % 4 == 2
  let s : State := { s with
    free := s.free + 1
    hbms := s.hbms.modify n (fun h => { h with errStat := if outer then setBits h.errStat 1 else h.errStat }) }
  (s.count (blkHbm n) (v % 4 - 1) (bnat inner)).count (blkHbm n) (1 + v / 4 % 4) (bnat outer)

/-- How many of the 8-byte words read from on-die SRAM had a single-bit error: corrected, written back and counted (R255); a
free value (log entry 70). -/
def State.readSram (s : State) (w : Who) (words : Nat) : State :=
  ({ s with free := s.free + 1 }).perfAdd w 0x17 (min words (Config.readError s.free))

/-- An event of a core that no command caused. -/
def whoCore (k : Nat) : Who := { whoCluster (k / 16) with core := some k }

/-- The units of `sz` bytes that `n` bytes from `a` touch. -/
def unitsIn (sz a n : Nat) : List Nat := if n = 0 then [] else (upto ((a + n - 1) / sz - a / sz + 1)).map (fun i => a / sz + i)

/-- Toward what an event at a core counts: the core, and the command that caused it (R539). -/
def Via.who (v : Via) (k : Nat) : Who := match v with
  | .cluster _ (some w) => { w with core := some k, cluster := some (k / 16) }
  | _ => whoCore k

/-- Requests for a range of a core store that lost arbitration for their bank to another engine of the core (R179): the manual gives no
schedule of the engines, so how many of the requests, one for each 64 bytes, lose is a free value (log entry 70). -/
def State.arbitrate (s : State) (v : Via) (a n : Nat) : State :=
  match coreOf a with
  | some (k, off) =>
    if off < 0x20_0000 then
      ({ s with free := s.free + 1 }).perfAdd (v.who k) 0x0F (min (unitsIn 64 a n).length (Config.readError s.free))
    else s
  | none => s

/-- What a read of a range finds beside its data: by HBM sector, or by 8-byte word of a core's or cluster's memory. -/
def State.readErrors (s : State) (v : Via) (a n : Nat) : State :=
  if isHbm a then (unitsIn 64 a n).foldl State.readSector s
  else match coreOf a, clusterOf a with
    | some (k, _), _ => (s.readSram (whoCore k) (unitsIn 8 a n).length).arbitrate v a n
    | none, some (m, _) => s.readSram (whoCluster m) (unitsIn 8 a n).length
    | none, none => s

/-- Whether an address lies behind the isolation clamps of a cluster whose switch is off (R444): a core store, a tile or the memory of
that cluster. Their arrays keep what they hold, and take a write (DESIGN CHOICE, log entry 53). -/
def State.dark (s : State) (a : Nat) : Bool := match coreOf a, clusterOf a with
  | some (k, _), _ => (s.cluster (k / 16)).switchOff
  | none, some (m, _) => (s.cluster m).switchOff
  | none, none => false

/-- The granules of a range that read as poisoned: the marked ones (R248), and those behind clamps (R444). -/
def State.poisonAt (s : State) (a n : Nat) : List Nat := (granules a n).filter (fun g => s.mem.isPoison g || s.dark (32 * g))

/-- The bytes of a range as a reader gets them: data lines are clamped to 0 (R444). -/
def State.bytesAt (s : State) (a n : Nat) : List Byte :=
  if (granules a n).any (fun g => s.dark (32 * g)) then (s.mem.read a n).mapIdx (fun i b => if s.dark (a + i) then 0 else b)
  else s.mem.read a n

/-- Read at the home, with the uncached class (R275). -/
def State.loadHome (s : State) (v : Via) (a n : Nat) : Loaded × State :=
  let bad := s.poisonAt a n
  ({ bytes := s.bytesAt a n, bad := bad }, (s.readErrors v a n).notePoison v bad)

/-- The HBM sectors that a write covers in part: each is a read-modify-write (R242). -/
def partSectors (a n : Nat) : List Nat :=
  if n = 0 then []
  else
    let lo := a / 64
    let hi := (a + n - 1) / 64
    (if lo = hi then [lo] else [lo, hi]).filter (fun k => decide (a > 64 * k ∨ a + n < 64 * k + 64))

/-- Write at the home, with the uncached class: bytes, poison (R248); a sector written in part is read first (R242), counted in
RMW_WRITES (R254). -/
def State.storeHome (s : State) (v : Via) (a : Nat) (bs : List Byte) (bad : List Nat) : State :=
  let s := s.setMem (s.mem.store a bs bad)
  let s := if isHbm a then (partSectors a bs.length).foldl (fun s k => (s.readSector k).count (blkHbm (stackOf (64 * k))) 0x08 1) s
           else s
  let s := s.arbitrate v a bs.length
  if !bad.isEmpty && onTrellis v a then s.forwardPoison else s

/-! ### Cluster caches (R258 to R261) -/

/-- The set of a line: A[18:7] XOR A[30:19] (R258). -/
def cacheSet (line : Nat) : Nat := (line % 4096) ^^^ (line / 4096 % 4096)

/-- The tree bits after an access to a way: each node on the path points away from it. -/
def plruTouch (way : Nat) : Nat → Nat → BitVec 15 → BitVec 15
  | 0, _, t => t
  | k + 1, node, t =>
    let right := bitOf way k
    let t := if right then t &&& ~~~(1#15 <<< node) else t ||| (1#15 <<< node)
    plruTouch way k (2 * node + 1 + bnat right) t

/-- The way the tree bits point to. -/
def plruVictim (t : BitVec 15) : Nat → Nat → Nat → Nat
  | 0, _, way => way
  | k + 1, node, way =>
    let right := t.getLsbD node
    plruVictim t k (2 * node + 1 + bnat right) (2 * way + bnat right)

def Cache.find (c : Cache) (line : Nat) : Option CacheLine := c.lines.find? (fun l => l.line == line)

def Cache.touch (c : Cache) (set way : Nat) : Cache :=
  { c with plru := sparsePut 0 c.plru set (plruTouch way 4 0 (sparseGet 0 c.plru set)) }

def noGranule : Granule := { valid := false, dirty := false, poison := false, data := 0 }

/-- A granule's bytes. -/
def Granule.bytes (g : Granule) : List Byte := bytesOf 32 g.data.toNat

/-- Write back the dirty granules of one sector of a line: the two granules as one write where both are dirty. -/
def State.writeBackSector (s : State) (w : Who) (l : CacheLine) (k : Nat) : State :=
  let g0 := unitAt noGranule l.gran (2 * k)
  let g1 := unitAt noGranule l.gran (2 * k + 1)
  let n0 := 4 * l.line + 2 * k
  let bad := (if g0.dirty && g0.poison then [n0] else []) ++ (if g1.dirty && g1.poison then [n0 + 1] else [])
  let v := Via.cluster (w.cluster.getD 0)
  if g0.dirty && g1.dirty then (s.storeHome v (32 * n0) (g0.bytes ++ g1.bytes) bad).perfAdd w 0x12 2
  else if g0.dirty then (s.storeHome v (32 * n0) g0.bytes bad).perfAdd w 0x12 1
  else if g1.dirty then (s.storeHome v (32 * n0 + 32) g1.bytes bad).perfAdd w 0x12 1
  else s

/-- Write back every dirty granule of a line (R260). -/
def State.writeBackLine (s : State) (w : Who) (l : CacheLine) : State :=
  (s.writeBackSector w l 0).writeBackSector w l 1

/-- The granules of a line, clean. -/
def CacheLine.clean (l : CacheLine) : CacheLine := { l with gran := l.gran.map (fun g => { g with dirty := false }) }

/-- The line for an access: found, or allocated in a free way, or in place of the tree's choice (R258, R260). -/
def State.cacheLine (s : State) (w : Who) (cl line : Nat) : CacheLine × State :=
  let c := s.cache cl
  let set := cacheSet line
  match c.find line with
  | some l => (l, s.modCache cl (fun c => c.touch set l.way))
  | none =>
    let used := (c.lines.filter (fun l => l.set == set)).map (fun l => l.way)
    let fresh (way : Nat) : CacheLine := { set := set, way := way, line := line, gran := List.replicate 4 noGranule }
    match (upto 16).find? (fun way => !used.contains way) with
    | some way => (fresh way, s.modCache cl (fun c => { c.touch set way with lines := fresh way :: c.lines }))
    | none =>
      let way := plruVictim (sparseGet 0 c.plru set) 4 0 0
      let s := match c.lines.find? (fun l => l.set == set && l.way == way) with
        | some v => s.writeBackLine w v
        | none => s
      (fresh way, s.modCache cl (fun c =>
        { c.touch set way with lines := fresh way :: c.lines.filter (fun l => !(l.set == set && l.way == way)) }))

/-- Put a line back. -/
def State.putLine (s : State) (cl : Nat) (l : CacheLine) : State :=
  s.modCache cl (fun c => { c with lines := modFirst (fun x => x.line == l.line) (fun _ => l) c.lines })

/-- A granule as it stands at its home. -/
def State.homeGranule (s : State) (g : Nat) : Granule :=
  { valid := true, dirty := false, poison := s.mem.isPoison g, data := BitVec.ofNat 256 (natOf (s.mem.read (32 * g) 32)) }

/-- Fill the granules of one sector that are not valid (R260; a fill reads the whole sector, R242). -/
def State.fillSector (s : State) (cl : Nat) (l : CacheLine) (k : Nat) : CacheLine × State :=
  let gs := [2 * k, 2 * k + 1].filter (fun i => !(unitAt noGranule l.gran i).valid)
  let l' := { l with gran := gs.foldl (fun gr i => gr.set i (s.homeGranule (4 * l.line + i))) l.gran }
  (l', (s.readSector (2 * l.line + k)).notePoison (.cluster cl) ((gs.map (fun i => 4 * l.line + i)).filter s.mem.isPoison))

/-- Read one granule through a cache: the copy where valid, else filled (R281); hits and misses counted. -/
def State.cacheRead (s : State) (w : Who) (cl g : Nat) : Granule × State :=
  let (l, s) := s.cacheLine w cl (g / 4)
  let gr := unitAt noGranule l.gran (g % 4)
  if gr.valid then (gr, (s.readSram (whoCluster cl) 4).perfAdd w 0x10 1)
  else
    let (l, s) := s.fillSector cl l (g % 4 / 2)
    (unitAt noGranule l.gran (g % 4), (s.putLine cl l).perfAdd w 0x11 1)

/-- Write bytes of one granule through a cache: `off` into it, poisoned or not. A part of a granule is filled first
and keeps its poison; a whole good granule clears it (R248, R260). -/
def State.cacheWrite (s : State) (w : Who) (cl g off : Nat) (bs : List Byte) (bad : Bool) : State :=
  let whole := decide (bs.length = 32)
  let (l, s) := s.cacheLine w cl (g / 4)
  let hit := (unitAt noGranule l.gran (g % 4)).valid
  let (l, s) := if whole || hit then (l, s) else s.fillSector cl l (g % 4 / 2)
  let old := unitAt noGranule l.gran (g % 4)
  let data := BitVec.ofNat 256 (natOf (patch old.bytes off bs))
  let new : Granule := { valid := true, dirty := true, poison := bad || (!whole && old.poison), data := data }
  (s.putLine cl { l with gran := l.gran.set (g % 4) new }).perfAdd w (if hit then 0x10 else 0x11) 1

/-- Read `n` bytes: through the cluster's cache when the class is cached and the address is HBM (R259). -/
def State.loadDev (s : State) (w : Who) (cl : Nat) (cached : Bool) (a n : Nat) : Loaded × State :=
  if cached && isHbm a then
    let (bs, bad, s) := (granules a n).foldl (fun (acc : List Byte × List Nat × State) g =>
      let (gr, s) := acc.2.2.cacheRead w cl g
      (acc.1 ++ gr.bytes, if gr.poison then acc.2.1 ++ [g] else acc.2.1, s)) ([], [], s)
    ({ bytes := (bs.drop (a % 32)).take n, bad := bad }, s)
  else s.loadHome (.cluster cl w) a n

/-- Write bytes, of which the granules `bad` arrive poisoned, with the class given (R259). -/
def State.storeDev (s : State) (w : Who) (cl : Nat) (cached : Bool) (a : Nat) (bs : List Byte) (bad : List Nat) : State :=
  if cached && isHbm a then
    (granules a bs.length).foldl (fun s g =>
      let lo := max a (32 * g)
      let hi := min (a + bs.length) (32 * g + 32)
      s.cacheWrite w cl g (lo - 32 * g) ((bs.drop (lo - a)).take (hi - lo)) (bad.contains g)) s
  else s.storeHome (.cluster cl w) a bs bad

/-- Write back the dirty granules of the lines that `p` picks in a cluster's cache, leaving them clean, or
invalidating the lines when `inv` (R261, R262). -/
def State.flushLines (s : State) (w : Who) (cl : Nat) (inv : Bool) (p : CacheLine → Bool) : State :=
  let ls := (s.cache cl).lines.filter p
  let s := ls.foldl (fun s l => s.writeBackLine w l) s
  s.modCache cl (fun c => { c with lines := if inv then c.lines.filter (fun l => !p l)
                                            else c.lines.map (fun l => if p l then l.clean else l) })

/-- Whether a range touches a 128-byte line (R215). -/
def lineIn (a n line : Nat) : Bool := decide (0 < n ∧ 128 * line < a + n ∧ a < 128 * line + 128)

/-! ### The region check (R263 to R265) -/

def pmValid : Nat := 0
def pmRead : Nat := 1
def pmWrite : Nat := 2
def pmHost : Nat := 3
def pmRemoteRead : Nat := 4
def pmRemoteWrite : Nat := 5

/-- Whether a region is valid and grants a permission bit. -/
def Region.grants (r : Region) (p : Nat) : Bool := r.perm.getLsbD 0 && r.perm.getLsbD p

/-- The first byte from `a` up to `z` that no region covers, by fuel (one region ends at least one round). -/
def firstHole (rs : List Region) (p z : Nat) : Nat → Nat → Option Nat
  | 0, a => if a < z then some a else none
  | k + 1, a =>
    if z ≤ a then none
    else
      let ends := (rs.filter (fun r => r.grants p && decide (r.base.toNat ≤ a ∧ a ≤ r.limit.toNat))).map
        (fun r => r.limit.toNat + 1)
      let e := ends.foldl max 0
      if e ≤ a then some a else firstHole rs p z k e

/-- Whether a range touches the core window of a retired core (R28, R235), and where: every core that is retired, whether the list of
the device record had room for it or not (R30, R31). -/
def State.retiredHole (s : State) (a n : Nat) : Option Nat :=
  ((upto 128).find? (fun c => (s.core c).retired && decide (0 < n ∧ coreBase + c * 0x40_0000 < a + n ∧ a < coreBase + (c + 1) * 0x40_0000))).map
    (fun c => max a (coreBase + c * 0x40_0000))

/-- The address at which a context's access to a range faults, if it does: a byte that no region with permission `p`
covers (R265), or a retired core's window (R235). -/
def State.regionFault (s : State) (x : Context) (p a n : Nat) : Option Nat :=
  if n = 0 then none
  else
    match s.retiredHole a n with
    | some h => some h
    | none => firstHole x.regions p (a + n) 65 a

end Sys2Proof.Machine
end

