-- ==== Sys2Proof/Machine/Link.lean ====
section
/-! DEFINITION. The sending side of the Runner links (R296 to R327): routes, messages to flits, credits, the replay
buffer, control flits, and the drop of a link's traffic when it goes down. -/

namespace Sys2Proof.Machine

open Sys2Proof

/-! ### Message operations (the *Message operations* table) -/

def opWrite : Nat := 0x01
def opWriteAck : Nat := 0x02
def opReadReq : Nat := 0x03
def opReadResp : Nat := 0x04
def opSignal : Nat := 0x05
def opSignalAck : Nat := 0x06
def opGrantReq : Nat := 0x07
def opGrantResp : Nat := 0x08
def opGrantRelease : Nat := 0x09
def opRouteErr : Nat := 0x0A
def opColl : Nat := 0x10
def opCollCheck : Nat := 0x11
def opGroup : Nat := 0x18
def opAttest : Nat := 0x1A

/-- The virtual channel of a message operation (R309); none for an unknown operation. -/
def vcOf (op : Nat) : Option Nat :=
  if op = 0x01 ∨ op = 0x05 then some 2
  else if op = 0x02 ∨ op = 0x06 ∨ op = 0x08 ∨ op = 0x09 ∨ op = 0x0A then some 3
  else if op = 0x03 ∨ op = 0x07 then some 0
  else if op = 0x04 then some 1
  else if op = 0x10 then some 4
  else if op = 0x11 then some 5
  else if op = 0x18 then some 6
  else if op = 0x1A then some 7
  else none

/-- A message of this device, one link from its source (R323). -/
def State.mkMsg (s : State) (op : Nat) (dst : BitVec 12) (job : W16) (addr : Nat) (tag : W16) (opword : Nat)
    (poison : Block) (data : List Byte) : Msg :=
  { vc := (vcOf op).getD 0, op := op, dst := dst, src := s.group.self, job := job, addr := BitVec.ofNat 48 addr,
    hops := 1, tag := tag, opword := BitVec.ofNat 32 opword, poison := poison, data := data }

/-! ### Routes (R322, R323) -/

/-- Whether a link carries messages on toward a peer: UP, in RETRAIN, or KEEPALIVE (which WAKE frames end, R327). -/
def LinkState.carries : LinkState → Bool
  | .up => true
  | .retrain => true
  | .keepalive => true
  | _ => false

/-- A link state in which ALT_PORT is taken instead (R323). -/
def LinkState.isDown : LinkState → Bool
  | .down => true
  | .refused => true
  | .disabled => true
  | _ => false

/-- The port a message for a chip goes out on, where one is valid (R323, R324). -/
def State.route (s : State) (dst : BitVec 12) : Option Nat :=
  let e := (sparseGet 0 s.routes dst.toNat).toNat
  let port := bitsOf e 4 0
  let alt := bitsOf e 9 5
  if !bitOf e 15 then none
  else if (s.link port).state.carries then some port
  else if (s.link port).state.isDown && bitOf e 10 && (s.link alt).state.carries then some alt
  else none

/-! ### Messages as flits (R299 to R304) -/

def padTo (n : Nat) (bs : List Byte) : List Byte := (bs ++ List.replicate n 0).take n

/-- The body of a header flit (the *Message header flit body* table). -/
def msgHeader (m : Msg) : List Byte :=
  padTo 252 ([BitVec.ofNat 8 (1 + 16 * m.vc), BitVec.ofNat 8 m.op] ++ bytesOf 2 m.dst.toNat ++ bytesOf 2 m.src.toNat
    ++ bytesOf 2 m.job.toNat ++ bytesOf 6 m.addr.toNat ++ bytesOf 2 m.data.length
    ++ [BitVec.ofNat 8 m.hops, BitVec.ofNat 8 (bnat (m.poison != 0))] ++ bytesOf 2 m.tag.toNat ++ bytesOf 4 m.opword.toNat
    ++ bytesOf 64 m.poison.toNat ++ m.data.take 164)

/-- The bodies of a message's flits: header, then data flits of 252 bytes (R301). -/
def msgBodies (m : Msg) : List (List Byte) :=
  msgHeader m :: (chunks 252 m.data.length (m.data.drop 164)).map (padTo 252)

/-- The CRC of a flit body at a sequence number (R300). -/
def flitCrc (body : List Byte) (seq : W32) : Nat := crc32c (body ++ bytesOf 4 seq.toNat)

/-- XOR marks of hold flits (R302) and stomped flits (R326). -/
def holdMark : Nat := 0x484F_4C44
def stompMark : Nat := 0x5354_4F4D

/-- A whole flit: body and CRC, marked (R300, R302, R326). -/
def sealFlit (body : List Byte) (seq : W32) (mark : Nat) : List Byte := body ++ bytesOf 4 (flitCrc body seq ^^^ mark)

/-- A flit takes the next slot of the frame being sent; five fill a DATA frame of 1,285 bytes, whose frame word holds 0x5A and
FRAME_NUM (R298, R299). -/
def Link.putSlot (l : Link) : Link :=
  if l.slot = 4 then { l with slot := 0, frameNum := l.frameNum + 1 } else { l with slot := l.slot + 1 }

/-- A flit goes out: in its slot, counted (R299, R330). -/
def State.emitFlit (s : State) (n : Nat) (f : Flit) : State := ((s.modLink n Link.putSlot).emit (.flit n f)).count (blkLink n) 0x00 1

/-- Send one flit: numbered and held for replay (R299, R306); in RETRAIN it goes with the replay that ends it. -/
def State.sendFlit (s : State) (n : Nat) (body : List Byte) (mark : Nat) : State :=
  let l := s.link n
  let f : Flit := { seq := l.txSeq, bytes := sealFlit body l.txSeq mark }
  let s := s.modLink n (fun l => 
    { l with
      txSeq := l.txSeq + 1
      replay := l.replay ++ [f]
      ackProgT := if l.replay.isEmpty then s.nowN else l.ackProgT })
  if l.state = .retrain then s else s.emitFlit n f

/-- Frames that carry no flits: KEEPALIVE, WAKE, RESET_NOTICE (R298). -/
def State.sendFrames (s : State) (n ftype k : Nat) : State :=
  (s.emit (.frames n ftype (s.link n).frameNum k)).modLink n (fun l => { l with frameNum := l.frameNum + BitVec.ofNat 32 k })

/-- The body of a control flit of this end (R303): acknowledgement, credits, up to four events. -/
def Link.controlBody (l : Link) (nak : Bool) (evs : List LinkEvent) : List Byte :=
  padTo 252 ([0, BitVec.ofNat 8 (bnat nak), 0, 0] ++ bytesOf 4 l.rxSeq.toNat ++ bytesOf 4 l.freedSh.toNat
    ++ l.freedVc.flatMap (fun c => bytesOf 4 c.toNat) ++ [0, 0, 0, 0]
    ++ (evs.take 4).flatMap (fun e => padTo 48 e.bytes))

/-- The slots that a frame has left are filled with control flits, by fuel (R299): not while a message passes through (R301), while
the replay buffer is full (R306), or where the link sends no DATA frames. -/
def State.fillFrameN (n : Nat) : Nat → State → State
  | 0, s => s
  | k + 1, s =>
    let l := s.link n
    if l.slot = 0 ∨ l.through.isSome ∨ 1024 ≤ l.replay.length ∨ (l.state ≠ .up ∧ l.state ≠ .negotiate) then s
    else State.fillFrameN n k (s.sendFlit n (l.controlBody false []) 0)

def State.fillFrame (s : State) (n : Nat) : State := s.fillFrameN n 4

/-- An event record as it departs: SYNC_REQ and SYNC_RESP take the time base then as T1 and T3 (R319). -/
def State.stamp (s : State) (e : LinkEvent) : LinkEvent :=
  if e.code = 0x01 then { e with bytes := patch e.bytes 8 (bytesOf 8 s.nowN) }
  else if e.code = 0x02 then { e with bytes := patch e.bytes 24 (bytesOf 8 s.nowN) }
  else e

/-- A KEEPALIVE_REQ event: byte 4 says whether KEEPALIVE begins (R320, R327). -/
def eventSleeps (e : LinkEvent) : Bool := e.code == 0x05 && fieldAt e.bytes 4 1 == 1

/-- An event record has departed: the time of a SYNC_REQ is kept for its answer (R319); a request for KEEPALIVE is this end's entry to it,
from which on its frames are KEEPALIVE (R298, R327). -/
def State.departed (s : State) (n : Nat) (e : LinkEvent) : State :=
  let s := s.emit (.event n e)
  let s := if e.code = 0x01 then s.modLink n (fun l => { l with syncT := s.time.now }) else s
  if eventSleeps e && (s.link n).state == .up then (s.sendFrames n 0x96 1).modLink n (fun l => { l with state := .keepalive, slot := 0 })
  else s

/-- Send a control flit; it acknowledges every flit before `rxSeq` (R303, R305). While a message passes through the port, no
control flit lies inside it (R302): it is due at the message's end. With the replay buffer full it is due when a place is free (R306). -/
def State.sendControl (s : State) (n : Nat) (nak : Bool) (evs : List LinkEvent) : State :=
  if (s.link n).through.isSome ∨ 1024 ≤ (s.link n).replay.length then
    s.modLink n (fun l => { l with ctlDue := some (nak || l.ctlDue.getD false), evDue := l.evDue ++ evs })
  else
    let evs := evs.map s.stamp
    let s := s.sendFlit n ((s.link n).controlBody nak evs) 0
    let s := evs.foldl (fun s e => s.departed n e) s
    (s.modLink n (fun l => { l with sinceAck := 0, lastAckT := s.nowN })).fillFrame n

/-- Send the control flits that have become due. -/
def State.sendDue (s : State) (n : Nat) : State :=
  let l := s.link n
  match l.ctlDue with
  | none => s
  | some nak =>
    if l.through.isSome ∨ 1024 ≤ l.replay.length then s
    else
      let s := s.modLink n (fun l => { l with ctlDue := none, evDue := [] })
      if l.evDue.isEmpty then s.sendControl n nak []
      else (chunks 4 l.evDue.length l.evDue).foldl (fun s es => s.sendControl n nak es) s

/-- An event record: code at byte 0, then bytes from byte 1 on. -/
def mkEvent (code : Nat) (bs : List Byte) : LinkEvent := { code := code, bytes := padTo 48 (BitVec.ofNat 8 code :: bs) }

/-! ### Credits and the send queue (R306, R308) -/

/-- Places free of a receive pool: its size less what has been used and not freed, both counted modulo 2^32. -/
def poolLeft (size : Nat) (used freed : W32) : Nat :=
  let k := (used - freed).toNat
  if k ≤ size then size - k else if 2 ^ 31 ≤ k then size else 0

/-- Credits a port holds for a virtual channel: dedicated, shared (R308). -/
def Link.credit (l : Link) (vc : Nat) : Nat × Nat :=
  (poolLeft 72 (unitAt 0 l.usedVc vc) (unitAt 0 l.crVc vc), poolLeft 448 l.usedSh l.crShared)

/-- Whether a message may begin: credits for all its flits, and room in the replay buffer (R306, R308). `kept`: shared places that an
Ordered collective reserves for its segments (R345). -/
def Link.mayBegin (l : Link) (kept : Nat) (m : Msg) : Bool :=
  let n := (msgBodies m).length
  let (d, h) := l.credit m.vc
  decide (n ≤ d + (h - if m.vc = 4 ∨ m.vc = 5 then 0 else kept) ∧ l.replay.length + n ≤ 1024)

/-- Take a message's credits, dedicated first (R308). -/
def Link.take (l : Link) (m : Msg) : Link :=
  let n := (msgBodies m).length
  let d := min n (l.credit m.vc).1
  { l with usedVc := l.usedVc.modify m.vc (fun u => u + BitVec.ofNat 32 d), usedSh := l.usedSh + BitVec.ofNat 32 (n - d) }

/-- Whether a message may pass an unadmitted link (R314). -/
def msgPreAdmission (m : Msg) : Bool := m.op == opGroup || m.op == opAttest

/-- Shared places of a port that Ordered collectives in progress reserve (R345). -/
def State.keptShared (s : State) (n : Nat) : Nat := if s.colls.any (fun c => c.hold.contains n) then 264 else 0

/-- Whether the cut of a Frost stands: from the cut to the end of the thaw no engine sends (R295, R511, R515). -/
def State.cutStands (s : State) : Bool := s.frost.phase == .frozen || s.frost.phase == .thawing

/-- Whether a message is the ABORT of a collective (R336, R358). -/
def msgAbort (m : Msg) : Bool := m.op == opColl && bitOf (fieldAt m.data 5 1) 2

/-- Whether a port may begin a message now: GROUP and ATTEST always; others once the peer is admitted (R314), outside a cut (R361); a
segment of a collective while the link adders run (R360), an ABORT also while they pause (R358); with its credits and room to replay it. -/
def State.mayBegin (s : State) (n : Nat) (m : Msg) : Bool :=
  (msgPreAdmission m || ((s.link n).admitted && !s.cutStands))
  && !(decide (4 ≤ s.pwr.shed) && (m.vc == 4 || m.vc == 5) && !msgAbort m)
  && (s.link n).mayBegin (s.keptShared n) m

/-- The first message of the queue that may begin, no earlier one of its virtual channel waiting, with the queue
without it. `blocked`: the virtual channels that wait. -/
def pickMsg (ok : Msg → Bool) (blocked : List Nat) : List Msg → Option (Msg × List Msg)
  | [] => none
  | m :: t =>
    if !blocked.contains m.vc && ok m then some (m, t)
    else (pickMsg ok (m.vc :: blocked) t).map (fun r => (r.1, m :: r.2))

/-- The last flit sent is the last of a message; that of a WRITE of another chip is kept in mind (R272). -/
def State.noteForwarded (s : State) (n : Nat) (m : Msg) : State :=
  if m.op = opWrite ∧ m.src ≠ s.group.self then s.modLink n (fun l => { l with fwdWrites := l.fwdWrites ++ [l.txSeq - 1] }) else s

/-- Send queued messages while they may begin, by fuel. -/
def State.pumpN (s : State) (n : Nat) : Nat → State
  | 0 => s
  | k + 1 =>
    let l := s.link n
    if l.state ≠ .up ∨ l.through.isSome then s
    else match pickMsg (s.mayBegin n) [] l.sendQ with
      | none => s
      | some (m, rest) =>
        let s := s.modLink n (fun l => { l.take m with sendQ := rest })
        let s := (msgBodies m).foldl (fun s b => s.sendFlit n b 0) s
        State.pumpN ((s.noteForwarded n m).emit (.message n m)) n k

/-! ### Cut-through (R323) -/

/-- The port that a message for another chip passes out on as it comes (R323): there are credits for all of it
and nothing of its channel before it. A GROUP message goes on only from an authenticated link (R533), and none but GROUP and ATTEST
after the cut. -/
def State.cutPort (s : State) (n : Nat) (m : Msg) (len : Nat) : Option Nat :=
  let pre := msgPreAdmission m
  if m.dst = s.group.self ∨ 8 ≤ m.hops ∨ (vcOf m.op).isNone = true ∨ (!pre && !(s.link n).admitted) = true
      ∨ (m.op == opGroup && !(s.link n).authOk) = true then none
  else match s.route m.dst with
    | none => none
    | some p =>
      let l := s.link p
      let whole : Msg := { m with data := List.replicate len 0 }
      if l.state == .up && l.through.isNone && !(l.sendQ.any (fun q => q.vc == m.vc)) && s.mayBegin p whole then some p
      else none

/-- A message begins to pass through from port `n` to port `p`: its header flit with HOPS one higher, then the data flits it already has
(R323). -/
def State.throughOn (s : State) (n p : Nat) (r : RxMsg) : State :=
  let whole : Msg := { r.msg with data := List.replicate r.length 0 }
  let s := (s.count (blkLink n) 0x09 1).modLink p (fun l => { l.take whole with through := some n })
  let s := s.sendFlit p (patch r.body 16 [BitVec.ofNat 8 (r.msg.hops + 1)]) 0
  let got := r.msg.data.drop 164
  let s := (chunks 252 got.length got).foldl (fun s b => s.sendFlit p (padTo 252 b) 0) s
  s.modLink n (fun l => { l with rx := some { r with mode := .through p } })

/-- A message that waits to pass out on a port begins when it can (R323). -/
def State.passWaiting (s : State) (p : Nat) : State :=
  match (upto 24).findSome? (fun n => match (s.link n).rx with
      | some r => if r.mode = .wait ∧ s.cutPort n r.msg r.length = some p then some (n, r) else none
      | none => none) with
  | some (n, r) => s.throughOn n p r
  | none => s

/-- Send what the link can; a frame begun is filled (R299). -/
def State.pump (s : State) (n : Nat) : State := ((s.pumpN n (s.link n).sendQ.length).passWaiting n).fillFrame n

/-- A link leaves KEEPALIVE because this end asks: WAKE frames, then UP (R327); at shed stage 6 it stays (R455). -/
def State.askUp (s : State) (n : Nat) : State :=
  let s := s.sendFrames n 0x69 1
  if 6 ≤ s.pwr.shed then s else (s.modLink n (fun l => { l with state := .up })).pump n

/-- Send what waits for a port; a port in KEEPALIVE sends WAKE frames for it (R327). -/
def State.goOn (s : State) (n : Nat) : State :=
  if (s.link n).state = .keepalive ∧ (s.link n).sendQ ≠ [] then s.askUp n else s.pump n

/-- Hand a message to a port. -/
def State.sendOn (s : State) (n : Nat) (m : Msg) : State :=
  let s := s.modLink n (fun l => { l with sendQ := l.sendQ ++ [m] })
  s.goOn n

/-- Send a message by its route; dropped where no port is valid, counted a misroute at port 0's block only when it
was forwarded (a source asks `route` first). -/
def State.sendMsg (s : State) (m : Msg) : State :=
  match s.route m.dst with
  | some n => s.sendOn n m
  | none => s

/-- The tags of a command's messages that await their answers. -/
def Op.tags (o : Op) : List W16 :=
  o.reads.map (fun r => r.tag) ++ (match o.phase with
    | .grantWait _ t _ => [t]
    | _ => [])

/-- A fresh request tag of a port: the next of its count that no message of this device awaits its answer under. -/
def State.newTag (s : State) (n : Nat) : W16 × State :=
  let used := s.ops.flatMap Op.tags
  let t0 := (s.link n).reqTag
  let t := (((upto (used.length + 1)).map (fun i => t0 + BitVec.ofNat 16 i)).find? (fun t => !used.contains t)).getD t0
  (t, s.modLink n (fun l => { l with reqTag := t + 1 }))

/-- The next WRITE tag of a port toward a chip (R311): consecutive modulo 2^16. -/
def State.writeTag (s : State) (n : Nat) (dst : BitVec 12) : W16 × State :=
  let l := s.link n
  let t := ((l.writeTags.find? (fun e => e.1 == dst)).map Prod.snd).getD 0
  (t, s.modLink n (fun l => { l with writeTags := (dst, t + 1) :: l.writeTags.filter (fun e => e.1 != dst) }))

/-- The receive buffers that a message of `k` flits takes: dedicated places of its channel first (R308, log entry 13). -/
def State.fillBuffers (s : State) (n vc k : Nat) : State :=
  s.modLink n (fun l =>
    let d := min k (72 - unitAt 0 l.bufVc vc)
    { l with bufVc := l.bufVc.modify vc (fun u => u + d), bufSh := l.bufSh.modify vc (fun u => u + (k - d)) })

/-- Free the buffers of a received message that the link still counts as taken: the shared places of its channel first (log entry 13). -/
def State.freeBuffers (s : State) (n : Nat) (m : Msg) : State :=
  s.modLink n (fun l =>
    let k := (msgBodies m).length
    let h := min k (unitAt 0 l.bufSh m.vc)
    let d := min (k - h) (unitAt 0 l.bufVc m.vc)
    { l with
      bufSh := l.bufSh.modify m.vc (fun u => u - h)
      bufVc := l.bufVc.modify m.vc (fun u => u - d)
      freedSh := l.freedSh + BitVec.ofNat 32 h
      freedVc := l.freedVc.modify m.vc (fun u => u + BitVec.ofNat 32 d) })

/-! ### LINK_EVENT and counters -/

def State.linkEvent (s : State) (n bit : Nat) : State := s.modLink n (fun l => { l with event := setBits l.event (2 ^ bit) })

def evDown : Nat := 0
def evPeerReset : Nat := 1
def evRefused : Nat := 2
def evReplay : Nat := 3
def evRetrained : Nat := 4
def evWidthDown : Nat := 5
def evMisroute : Nat := 6
def evHopLimit : Nat := 7

/-- DOWN_CAUSE codes. -/
def dcDisabled : Nat := 1
def dcPeerReset : Nat := 2
def dcLos : Nat := 3
def dcTrainFail : Nat := 4
def dcRetrainFail : Nat := 5
def dcLocalReset : Nat := 6
def dcRequested : Nat := 7
def dcVersion : Nat := 9
def dcPeerMismatch : Nat := 0xA

def LinkState.code : LinkState → Nat
  | .disabled => 0
  | .detect => 1
  | .train => 2
  | .align => 3
  | .negotiate => 4
  | .up => 5
  | .retrain => 6
  | .keepalive => 7
  | .down => 8
  | .refused => 9
  | .shutdown => 0xA

/-- LINK_STAT as a number (R573). -/
def Link.stat (l : Link) : Nat :=
  fieldVal l.peerChip.toNat 20 + fieldVal l.peerPort.toNat 13 + fieldVal l.lanesGood.toNat 9 + fieldVal (bnat l.width2) 8
  + fieldVal l.cause 4 + l.state.code

/-- Replay every held flit from ACK_SEQ on (R306): sent again with the numbers they have. -/
def State.replayLink (s : State) (n : Nat) : State :=
  let s := (s.link n).replay.foldl (fun s f => s.emitFlit n f) s
  ((s.linkEvent n evReplay).count (blkLink n) 0x03 1).modLink n (fun l => { l with noProg := l.noProg + 1 })

end Sys2Proof.Machine
end

