-- ==== Sys2Proof/Machine/Stream.lean ====
section
/-! DEFINITION. The command streams (R194 to R233, R284 to R295): rings, the context status block, issue, completion
records, the ordering commands, and the end of a context. The checks of each opcode stand in its family's file. -/

namespace Sys2Proof.Machine

open Sys2Proof

/-! ### Context status block (R196) -/

def CtxStatus.code : CtxStatus → Nat
  | .active => 0
  | .frozen => 1
  | .aborted => 2
  | .quarantined => 3

/-- Bytes 0 to 23 of the block; reserved bytes are written as zero (log entry 14). -/
def csbBytes (x : Context) (now : W64) : List Byte :=
  bytesOf 4 x.sqHead.toNat ++ bytesOf 4 x.cqTail.toNat ++ [BitVec.ofNat 8 x.status.code, 0]
  ++ bytesOf 2 x.dbErrs.toNat ++ [0, 0, 0, 0] ++ bytesOf 8 now.toNat

/-- The lowest cluster of a context's set. -/
def lowCluster (x : Context) : Nat := ((upto 8).find? (fun n => x.clusters.getLsbD n)).getD 0

/-- The clusters of a context's set. -/
def clustersOf (x : Context) : List Nat := (upto 8).filter (fun n => x.clusters.getLsbD n)

/-- Write a context's status block, with the uncached class: by Ronon, which runs in a Frost too (R512). -/
def State.putCsb (s : State) (c : Nat) : State :=
  match s.ctx c with
  | none => s
  | some x => s.storeHome (.cluster (lowCluster x)) x.csb.toNat (csbBytes x s.time.now) []

/-- A ring engine writes a context's status block; not while a Frost holds the device (R295): the thaw writes every block. -/
def State.writeCsb (s : State) (c : Nat) : State := if s.frost.phase = .frozen then s else s.putCsb c

/-! ### Service state -/

/-- Whether a cluster issues: its CSP runs, its issue is not held, it is not in reset or switched off (R611). -/
def State.clusterUp (s : State) (n : Nat) : Bool :=
  (s.proc (3 + n)).runs && !(s.cluster n).issueHeld && !(s.cluster n).resetting && !(s.cluster n).switchOff

/-- A core that can run commands: in service, not retired, not in reset, its cluster up (R27, R28). -/
def State.coreUp (s : State) (k : Nat) : Bool :=
  (s.core k).inService && !(s.core k).retired && !(s.core k).resetting && s.clusterUp (k / 16)

/-- The cores of a context's cluster set that can take a new space: no space bound, no Trug pass running (R143, R145). -/
def State.freeCores (s : State) (x : Context) : List Nat :=
  (upto 128).filter (fun k => x.clusters.getLsbD (k / 16) && s.coreUp k && (s.core k).bound.isNone
    && !s.batches.any (fun b => b.core == some k))

/-- A command starts on its core: the COMMAND set is zeroed, tagged and its epoch raised (R541); CORE_RUN names it. -/
def State.startOnCore (s : State) (o : Op) : State :=
  match o.core with
  | none => s
  | some k =>
    (s.perfClear 4 k).modCore k (fun r =>
      { r with
        tagCtx := some o.ctx
        tagIdx := o.idx
        tagLayer := dLayer o.desc
        tagOper := dOper o.desc
        tagEpoch := r.tagEpoch + 1
        run := o.idx
        progT := s.nowN })

/-! ### Completion (R222 to R230) -/

/-- Opcodes that name a digest output (R206). -/
def digestOp (op : Nat) : Bool :=
  [0x10, 0x11, 0x13, 0x18, 0x20, 0x29, 0x30, 0x31, 0x32, 0x33, 0x38, 0x39].contains op

/-- Whether a command will write a digest extension if it completes well (R204). -/
def willDigest (d : Block) : Bool :=
  dDigest d && digestOp (dOpcode d) && (!(dOpcode d == 0x10 || dOpcode d == 0x11) || mfEnd d)

/-- Whether a status lets the extension be written (R204). -/
def digestStatus (st : Byte) : Bool := decide (st.toNat ≤ 0x0F) || st == stReduceMismatch || st == stPoison

/-- PHASE of the completion entry at an index: 1 on the first pass, alternating (R224). -/
def phaseAt (x : Context) (i : Nat) : Byte := if i / 2 ^ x.cqLog2 % 2 = 0 then rfPhase else 0

/-- A completion record (the *Completion record* table). -/
def recordBytes (x : Context) (o : Op) (now : W64) (ext : Bool) : List Byte :=
  bytesOf 4 (dTag o.desc).toNat ++ bytesOf 4 o.idx.toNat
  ++ [o.status, (o.rflags &&& 0x3C) ||| phaseAt x x.cqTail.toNat ||| flagIf ext rfDigest,
      BitVec.ofNat 8 (dOpcode o.desc), BitVec.ofNat 8 (o.core.getD 0xFF)]
  ++ bytesOf 2 (dLayer o.desc).toNat ++ bytesOf 2 (dOper o.desc).toNat ++ bytesOf 8 now.toNat
  ++ bytesOf 4 o.d0.toNat ++ bytesOf 2 o.d1.toNat ++ bytesOf 2 (o.gen.toNat % 65536)

/-- The address of a completion entry. -/
def cqAddr (x : Context) (i : W32) : Nat := ringAddr x.cqBase.toNat x.cqLog2 32 i.toNat

/-- Write a record, its extension first (R223), and advance CQ_TAIL. -/
def State.writeRecord (s : State) (o : Op) (ext : Option (List Byte)) : State :=
  match s.ctx o.ctx with
  | none => s
  | some x =>
    let s := match ext with
      | some e =>
        (s.storeHome (.cluster o.cluster) (cqAddr x (x.cqTail + 1)) (e.take 32) []).storeHome (.cluster o.cluster) (cqAddr x (x.cqTail + 2)) (e.drop 32) []
      | none => s
    let s := s.storeHome (.cluster o.cluster) (cqAddr x x.cqTail) (recordBytes x o s.time.now ext.isSome) []
    let s := s.modCtx o.ctx (fun x => { x with cqTail := x.cqTail + (if ext.isSome then 3 else 1) })
    s.writeCsb o.ctx

/-- A space has no binding any more (R143). -/
def State.dropSpace (s : State) (c num : Nat) : State :=
  s.modCtx c (fun x => { x with spaces := x.spaces.filter (fun p => p.num != num) })

/-- Whether an opcode's commands name an accumulator space and run on its core (R206). -/
def usesSpace (d : Block) : Bool :=
  [0x10, 0x11, 0x12, 0x13, 0x18].contains (dOpcode d)
  || (dOpcode d == 0x20 && (fldBits d 32 1 2 0 == 0 || fldBits d 33 1 2 0 == 0))

/-- Cores whose binding to a space of a context has ended serve no space, once no command of that space is left on them; FREE_CORE_GRANT
gives them to waiting spaces (R143, R145; log entry 16). -/
def State.freeEnded (s : State) (c : Nat) : State :=
  let spaces := ((s.ctx c).map (fun x => x.spaces)).getD []
  (upto 128).foldl (fun (t : State) k =>
    match (s.core k).bound with
    | some (d, sp) =>
      if d = c ∧ !(spaces.any (fun p => p.num == sp && p.core == k))
          ∧ !(s.ops.any (fun o => o.ctx == c && o.core == some k && usesSpace o.desc && dSpace o.desc == sp)) then
        t.modCore k (fun r => { r with bound := none })
      else t
    | none => t) s

/-- End the bindings of released spaces with no open group (R143): a later command of the space binds it anew. -/
def State.endReleased (s : State) (c : Nat) : State :=
  (((((s.ctx c).map (fun x => x.spaces)).getD []).filter (fun p => p.release && p.groups.isEmpty)).foldl
    (fun s p => s.dropSpace c p.num) s).freeEnded c

/-- Count a completed command (R538, COMMANDS). -/
def State.countCommand (s : State) (o : Op) : State := s.perfAdd o.who 0x13 1

/-- Put an operation back among those of its context, in issue order (indices compared modulo 2^32). -/
def insertOp (o : Op) : List Op → List Op
  | [] => [o]
  | q :: t => if q.ctx = o.ctx ∧ q.idx ≠ o.idx ∧ (q.idx - o.idx).toNat < 2 ^ 31 then o :: q :: t else q :: insertOp o t

def State.putBack (s : State) (o : Op) : State := { s with ops := insertOp o s.ops }

/-- Whether a Frost keeps a command from completing (R233): its context is FROZEN, and it is not one that DISCARD ends, which R405
completes before the thaw. -/
def State.keeps (s : State) (o : Op) : Bool :=
  s.frost.phase == .frozen && o.status != stAbortedFrost && (match s.ctx o.ctx with
    | some x => x.status == .frozen
    | none => false)

/-- Complete a command now: record, interrupt (R205), the entry leaves the list of issued commands. A command that ends while a Frost
holds its context completes at thaw (R233); `open_`: its results are left open then. -/
def State.endNow (s : State) (o : Op) (ext : Option (List Byte)) (open_ : Bool) : State :=
  if s.keeps o then (s.dropOp o.ctx o.idx).putBack { o with phase := .ended open_ }
  else
    let s := if open_ then o.outs.foldl (fun s r => s.openRange r.1 r.2) s else s
    let s := (s.dropOp o.ctx o.idx).writeRecord o ext
    let s := if dInterrupt o.desc then s.msix o.ctx else s
    ((s.countCommand o).modCluster o.cluster (fun k => { k with progT := s.nowN })).endReleased o.ctx

def State.finishNow (s : State) (o : Op) (ext : Option (List Byte)) : State := s.endNow o ext false

/-- A command as it ends early with a code: a WAIT gives no value read (R227). -/
def Op.cut (o : Op) (code : Byte) : Op :=
  let o := o.raise code
  if dOpcode o.desc = 0x05 then { o with d0 := 0 } else o

/-- End a command early with a code whose results are partial and unspecified (R229). -/
def State.endOp (s : State) (o : Op) (code : Byte) : State := s.endNow (o.cut code) none true

/-- The ranges that a list of region checks needs WRITE for. -/
def writesOf (l : List (Nat × Nat × Nat)) : List (Nat × Nat) :=
  l.filterMap (fun r => if r.1 = pmWrite then some r.2 else none)

/-- The core that holds a finished command's record while its CSP is down: its own, else the first of its cluster. -/
def heldAt (o : Op) : Nat := o.core.getD (16 * o.cluster)

/-- A command's work is done. While its CSP is down the core holds its completion, at most 64 (R484); a digest is
taken first when it applies (R204); else the record is written. -/
def State.finish (s : State) (o : Op) : State :=
  if !(s.proc (3 + o.cluster)).runs then
    (s.dropOp o.ctx o.idx).modCore (heldAt o) (fun k => { k with held := k.held ++ [o] })
  else if willDigest o.desc && digestStatus o.status && o.slots == 3 then s.putOp { o with phase := .digest }
  else s.finishNow o none

/-- Whether completion events act: not while a Frost holds the device (R233), nor past 64 held completions (R484). -/
def State.mayFinish (s : State) (o : Op) : Bool :=
  (s.frost.phase == .running || s.frost.phase == .cutting)
  && ((s.proc (3 + o.cluster)).runs || decide ((s.core (heldAt o)).held.length < 64))

/-! ### SIGNAL and the words it writes (R285, R294) -/

/-- WRITE or ADD on an 8-byte word at its home: the value before, whether its granule was poisoned, the state. An ADD
to a poisoned word writes nothing (R294). -/
def State.signalWord (s : State) (via : Via) (a : Nat) (add : Bool) (v : Nat) : Nat × Bool × State :=
  let (l, s) := s.loadHome via a 8
  let old := natOf l.bytes
  let bad := !l.bad.isEmpty
  if add && bad then (old, bad, s)
  else (old, bad, s.storeHome via a (bytesOf 8 (if add then (old + v) % 2 ^ 64 else v)) [])

/-- Whether a chip is a member of a formed group this device is in (R270). -/
def State.groupHas (s : State) (chip : BitVec 12) : Bool :=
  s.group.formed && (match s.group.cfg with
    | some g => g.members.contains chip
    | none => false)

/-- SIGNAL begins to act: at its local home, or as a message (R284, R285, R270). -/
def State.actSignal (s : State) (o : Op) : State :=
  let a := fld o.desc 16 8
  let add := fld o.desc 32 1 == 1
  let v := fld o.desc 24 8
  let chip := gChip a
  if !bitOf a 63 || chip == s.group.self then
    let (old, bad, s) := s.signalWord (.cluster o.cluster o.who) (gAddr a) add v
    let o := { o with d0 := if add && !bad then BitVec.ofNat 32 old else 0 }
    s.finish (if bad then o.flag rfPoison else o)
  else if !s.groupHas chip then s.finish (o.raise stGroupAbsent)
  else match s.route chip, s.ctx o.ctx with
    | some n, some x =>
      let (tag, s) := s.newTag n
      let m := s.mkMsg opSignal chip x.jobId (gAddr a) tag 0 0 (BitVec.ofNat 8 (bnat add) :: bytesOf 8 v)
      (s.putOp { o with phase := .acting, reads := [{ tag := tag, link := n, off := 0, len := 0, left := 0 }], progT := s.nowN }).sendOn n m
    | _, _ => s.finish (o.raise stNoRoute)

/-- Whether remote writes of a context's earlier commands are still unacknowledged (R284). -/
def State.unacked (s : State) (c : Nat) : Bool := s.posted.any (fun p => p.ctx == c)

/-- What an ordering command does when every earlier command of its stream has completed (R284). -/
def State.act (s : State) (o : Op) : State :=
  match dOpcode o.desc with
  | 0x01 => s.finish o
  | 0x06 => if s.unacked o.ctx then s.putOp { o with phase := .acting, progT := s.nowN } else s.finish o
  | 0x04 => s.actSignal o
  | 0x02 => if fld o.desc 24 8 = 0 then s.finish o else s.putOp { o with phase := .acting, progT := s.nowN }
  | 0x03 => if fld o.desc 24 8 = 0 then s.finish o else s.putOp { o with phase := .acting, progT := s.nowN }
  | _ => s

/-- Whether an earlier command of the context has its completion held by a core, its CSP being down (R484): it is not complete. -/
def State.heldBefore (s : State) (o : Op) (p : Op → Bool) : Bool :=
  s.cores.any (fun k => k.held.any (fun h => h.ctx == o.ctx && h.idx != o.idx && decide ((o.idx - h.idx).toNat < 2 ^ 31) && p h))

/-- Whether a request of the Trug has its completion held by an earlier one of its slot (R125: no order holds between slots). -/
def State.slotHeld (s : State) (o : Op) : Bool :=
  let same (q : Op) : Bool := q.ctx == o.ctx && dOpcode q.desc == 0x29 && fldBits q.desc 16 2 9 0 == fldBits o.desc 16 2 9 0
  (s.ops.takeWhile (fun q => !q.is o.ctx o.idx)).any same || s.heldBefore o same

/-- Complete the requests of the Trug that waited for an earlier one of their slot, by fuel (R125). -/
def State.settlePosts (s : State) (c : Nat) : Nat → State
  | 0 => s
  | k + 1 =>
    match s.ops.find? (fun o => o.ctx == c && dOpcode o.desc == 0x29 && o.phase == .waitEarlier && !s.slotHeld o) with
    | some o => State.settlePosts (s.finish o) c k
    | none => s

/-- Let the waiting ordering commands of a context begin to act, each once every earlier command has completed, by
fuel (each round completes one or leaves none to act). -/
def State.settleN (s : State) (c : Nat) : Nat → State
  | 0 => s
  | k + 1 =>
    match s.ops.find? (fun o => o.ctx == c) with
    | some o =>
      if s.heldBefore o (fun _ => true) then s
      else if o.phase = .waitEarlier then State.settleN (s.act o) c k
      else if dOpcode o.desc = 0x06 ∧ o.phase = .acting ∧ !s.unacked c then State.settleN (s.finish o) c k
      else s
    | none => s

/-- Settle a context's stream after something of it completed; not while a Frost holds it (R233). -/
def State.settle (s : State) (c : Nat) : State :=
  if s.frost.phase = .running ∨ s.frost.phase = .cutting then (s.settlePosts c (s.ops.length + 1)).settleN c (s.ops.length + 1) else s

/-- Complete a command and let what waited on it go on. -/
def State.complete (s : State) (o : Op) : State := (s.finish o).settle o.ctx

/-! ### The end of a context (R232, R262) -/

/-- The 128-byte lines within a context's regions (R262). -/
def inRegions (x : Context) (l : CacheLine) : Bool :=
  x.regions.any (fun r => r.perm.getLsbD 0 && decide (r.base.toNat ≤ 128 * l.line ∧ 128 * l.line + 127 ≤ r.limit.toNat))

/-- Take a context out of every engine's queues: Pruner queue, collectives, requests of the Trug, waits for cores,
finished commands held by cores, writes that await an acknowledgement. -/
def State.dropWork (s : State) (c : Nat) : State :=
  { s with
    pruneQ := s.pruneQ.filter (fun p => p.ctx != c)
    colls := s.colls.filter (fun p => p.ctx != c)
    batches := (s.batches.map (fun b => { b with reqs := b.reqs.filter (fun r => r.ctx != c) })).filter
      (fun b => !b.reqs.isEmpty || b.pass.isSome)
    coreWait := s.coreWait.filter (fun w => w.1 != c)
    posted := s.posted.filter (fun p => p.ctx != c)
    cores := s.cores.map (fun k => { k with held := k.held.filter (fun h => h.ctx != c) }) }

/-- Every command read from a context's ring and not complete: issued ones, and finished ones still held. -/
def State.openOps (s : State) (c : Nat) : List Op :=
  s.ops.filter (fun o => o.ctx == c) ++ (s.cores.flatMap (fun k => k.held)).filter (fun o => o.ctx == c)

/-- What a collective's record tells of it (R226, R227, R230): escalated blocks, the first NaN's chip, the flags. -/
def collReport (c : Coll) (o : Op) : Op :=
  let o : Op := { o with
    d0 := BitVec.ofNat 32 (satAt (2 ^ 32 - 1) c.esc)
    d1 := match c.nan with
      | some (_, chip) => BitVec.ofNat 16 chip
      | none => 0xFFFF }
  let o := if c.esc > 0 then o.raise stOkEscalated else o
  let o := if c.sawNan then (o.raise stOkNan).flag rfNan else o
  let o := if c.mismatch then o.raise stReduceMismatch else o
  if c.poison then o.flag rfPoison else o

/-- What a command has found so far in the engine that runs it goes into its record, whatever ends it (R226, R227, R230). -/
def State.soFar (s : State) (o : Op) : Op :=
  match s.colls.find? (fun c => c.ctx == o.ctx && c.idx == o.idx), s.pruneQ.find? (fun p => p.ctx == o.ctx && p.idx == o.idx) with
  | some c, _ => collReport c o
  | none, some p =>
    let o := if dOpcode o.desc = 0x39 ∧ fld o.desc 39 1 = 3 then { o with d0 := BitVec.ofNat 32 p.count } else o
    o.flag (flagIf (p.seen || p.poison) rfPoison)
  | none, none => o

/-- End one context with a status code and a STATE (R232): the lines of its regions are written back and invalidated (R262), every
command read and not complete completes with the code, its groups and bindings end (R153), the rest of the ring is not read. -/
def State.endOne (s : State) (c : Nat) (code : Byte) (st : CtxStatus) : State :=
  match s.ctx c with
  | none => s
  | some x =>
    if x.status = .aborted ∨ x.status = .quarantined then s
    else
      let ops := (s.openOps c).map s.soFar
      let s := s.dropWork c
      let s := (clustersOf x).foldl (fun s n => s.flushLines (whoCluster n) n true (inRegions x)) s
      let s := s.modCtx c (fun x =>
        { x with
          status := st
          sqTail := x.sqHead
          issueWait := none
          pending := none
          grants := []
          streams := x.streams.map (fun t => { t with grant := 0 }) })
      let s := ops.foldl (fun s o => s.endOp o code) s
      let s := (s.modCtx c (fun x => { x with spaces := [] })).freeEnded c
      s.putCsb c

/-- Whether a granule holds part of a context's completion ring or status block (R257). -/
def structGranule (x : Context) (g : Nat) : Bool :=
  decide (x.cqBase.toNat < 32 * g + 32 ∧ 32 * g < x.cqBase.toNat + 32 * 2 ^ x.cqLog2)
  || decide (x.csb.toNat < 32 * g + 32 ∧ 32 * g < x.csb.toNat + 64)

/-- Abort the contexts whose completion ring or status block has become poisoned, by fuel: what one of them writes back may poison
another's. -/
def State.watchN (old s : State) : Nat → State
  | 0 => s
  | k + 1 =>
    let new := s.mem.poison.filter (fun g => !old.mem.poison.contains g)
    if new.isEmpty then s
    else match (upto 64).find? (fun c => match s.ctx c with
        | some x => (x.status == .active || x.status == .frozen) && new.any (structGranule x)
        | none => false) with
      | some c => State.watchN old (s.endOne c stAbortedContext .aborted) k
      | none => s

/-- After writes that may carry poison: a context whose completion ring or status block became poisoned is aborted
(R257, R605). -/
def State.poisonWatch (old s : State) : State := State.watchN old s 64

/-- End a context (R232, R262), and every context whose structures its write-backs poison (R605). -/
def State.endContext (s : State) (c : Nat) (code : Byte) (st : CtxStatus) : State := s.poisonWatch (s.endOne c code st)

/-! ### Issue (R200, R201, R219) -/

/-- What the checks of a command find. `go`: the checks pass and the operation is ready to start. -/
inductive Verdict
  | fail (st : Byte) (off : Nat)
  | fault (addr : Nat)
  | poisoned (off : Nat) (bad : List Nat)
  | wait (w : IssueWait)
  | go (o : Op)
deriving DecidableEq, Repr

/-- A completion entry is free between CQ_TAIL with the reserved entries and CQ_HEAD plus the ring (R201). -/
def State.cqFree (s : State) (c : Nat) (x : Context) : Nat :=
  let used := (x.cqTail - x.cqHead).toNat + (s.openOps c).foldl (fun n o => n + o.slots) 0
  2 ^ x.cqLog2 - used

/-- Commands that hold the issue of later ones until they complete (R284). -/
def holdsLater (o : Op) : Bool := [0x01, 0x02, 0x03, 0x05, 0x06].contains (dOpcode o.desc)

/-- Whether a context's issue is open: ACTIVE, no ordering command holds it, no region change waits (R266), a cluster
of its set in service (R611), no Frost. -/
def State.issueOpen (s : State) (c : Nat) (x : Context) : Bool :=
  x.status == .active && x.pending.isNone && !((s.openOps c).any holdsLater)
  && s.frost.phase == .running && (clustersOf x).any s.clusterUp

/-- The submission entry at an index. -/
def sqAddr (x : Context) (i : W32) : Nat := ringAddr x.sqBase.toNat x.sqLog2 64 i.toNat
def State.entryAt (s : State) (x : Context) (i : W32) : Block := blockOf (s.mem.read (sqAddr x i) 64)
def State.entryBad (s : State) (x : Context) (i : W32) : List Nat := s.poisonAt (sqAddr x i) 64

/-- The next entry of a context: there when its issue is open and SQ_TAIL covers it. -/
def State.nextEntry (s : State) (c : Nat) : Option (Context × Block) :=
  match s.ctx c with
  | none => none
  | some x => if s.issueOpen c x && x.sqHead != x.sqTail then some (x, s.entryAt x x.sqHead) else none

/-- The operation an entry becomes at issue. -/
def State.newOp (s : State) (c : Nat) (x : Context) (d : Block) : Op :=
  { ctx := c, idx := x.sqHead, desc := d, ext := 0, core := none,
    cluster := ((clustersOf x).find? s.clusterUp).getD (lowCluster x), gen := s.regs.gen, phase := .running, status := 0,
    rflags := 0, d0 := 0, d1 := 0, slots := if willDigest d then 3 else 1, tIssue := s.nowN, tiles := [], gtiles := [], gkind := none, pgroup := [],
    fill := 0, bytes := [], taken := 0, base := 0, asked := 0, wrote := 0,
    parts := [], bad := [], reads := [], rgrants := [], outs := [], progT := s.nowN, gapSaid := false }

/-- Advance SQ_HEAD past an entry of `n` places; its issue has ended. -/
def State.advance (s : State) (c n : Nat) : State :=
  (s.modCtx c (fun x => { x with sqHead := x.sqHead + BitVec.ofNat 32 n, issueWait := none })).writeCsb c

/-- A command has been read from the ring: SQ_HEAD passes its places, and a DMA command is kept in mind for the BIND of later ones
while its entry stands in the ring (R209). -/
def State.taken (s : State) (o : Op) (places : Nat) : State :=
  let s := s.advance o.ctx places
  if dOpcode o.desc = 0x20 then
    s.modCtx o.ctx (fun x => { x with dmas := o.idx :: x.dmas.filter (fun i => decide ((x.sqHead - i).toNat ≤ 2 ^ x.sqLog2)) })
  else s

/-- A space begins to wait for a core, last in the order (R145). -/
def State.noteWait (s : State) (c : Nat) (w : IssueWait) : State :=
  let s := s.modCtx c (fun x => { x with issueWait := some w })
  match w with
  | .freeCore sp => if s.coreWait.contains (c, sp) then s else { s with coreWait := s.coreWait ++ [(c, sp)] }
  | _ => s

/-- Carry out what the checks found (R219): a failure completes the command at once with its detail (R227), a wait
leaves the entry, a pass starts it. -/
def State.settleVerdict (s : State) (o : Op) (places : Nat) (v : Verdict) (start : State → Op → State) : State :=
  let done (o : Op) : State := ((s.taken o places).finishNow o none).settle o.ctx
  match v with
  | .fail st off => done { o with status := st, d0 := BitVec.ofNat 32 off }
  | .fault a => done { o with status := stRegionFault, d0 := BitVec.ofNat 32 a, d1 := BitVec.ofNat 16 (a / 2 ^ 32) }
  | .poisoned off bad =>
    let o := { o with status := stPoison, d0 := BitVec.ofNat 32 off }.flag rfPoison
    (((s.notePoison (.cluster o.cluster) bad).taken o places).finishNow o none).settle o.ctx
  | .wait w => s.noteWait o.ctx w
  | .go o' =>
    let s := s.modCluster o'.cluster (fun k => { k with progT := s.nowN })
    (start ((s.taken o' places).addOp o') o').settle o'.ctx

/-- Issue a context's next entry when its opcode is `opc` (R200, R219): completion entries first (R201), DESC_VER, then
the opcode's own checks from permission on. The entry is left, and nothing else changes, when it is not there, is
another opcode's, or is poisoned (POISONED_SUBMISSION_ENTRY issues those). -/
def State.issue (s : State) (c : Nat) (opc : Nat) (check : State → Context → Op → Verdict)
    (start : State → Op → State) : State :=
  match s.nextEntry c with
  | none => s
  | some (x, d) =>
    if dOpcode d ≠ opc ∨ !(s.entryBad x x.sqHead).isEmpty then s
    else
      let o := s.newOp c x d
      if s.cqFree c x < o.slots then s.noteWait c .completionEntries
      else if dVer d ≠ 1 then s.settleVerdict o 1 (.fail stBadVersion 1) start
      else s.settleVerdict o 1 (check s x o) start

/-- Checks 1 to 7 in order, each giving a failure or passing: the first failure found decides (R219). -/
def firstFail (l : List (Option Verdict)) (v : Verdict) : Verdict := ((l.filterMap id).head?).getD v

/-- A check of fields: the failures of one check, of which the lowest byte offset is reported (R219). -/
def lowest (st : Byte) (l : List (Bool × Nat)) : Option Verdict :=
  match (l.filter Prod.fst).map Prod.snd with
  | [] => none
  | h :: t => some (.fail st (t.foldl min h))

/-- A region check of ranges (permission, address, bytes), in the order of the byte offsets of their fields: the first range that
faults (R219). -/
def State.regions (s : State) (x : Context) (l : List (Nat × Nat × Nat)) : Option Verdict :=
  ((l.filterMap (fun r => s.regionFault x r.1 r.2.1 r.2.2)).head?).map Verdict.fault

/-- Whether a granted permission of R221 is missing: bit of CPERM. -/
def lacks (x : Context) (bit : Nat) : Bool := !x.cperm.getLsbD bit

end Sys2Proof.Machine
end

