-- ==== Sys2Proof/Machine/Ordering.lean ====
section
/-! DEFINITION. The stream's own commands: NOP, FENCE, REMOTE_FENCE, FLUSH_RANGE, INVAL_RANGE, SIGNAL, WAIT, entries
with an unknown opcode or in a poisoned granule, and the events that complete them (R206, R215, R261, R284 to R286). -/

namespace Sys2Proof.Machine

open Sys2Proof

/-- The outcome of a command that goes on. -/
abbrev Done := Host.Outcome State Fault Refusal

/-! ### Checks -/

/-- Commands without a body pass every check after DESC_VER (R206). -/
def checkBare (_ : State) (_ : Context) (o : Op) : Verdict := .go o

/-- Commands that act once every earlier command has completed (R284). -/
def checkWaiting (_ : State) (_ : Context) (o : Op) : Verdict := .go { o with phase := .waitEarlier }

/-- FLUSH_RANGE and INVAL_RANGE: READ over ADDR to ADDR + LENGTH - 1 (R265). -/
def checkRange (s : State) (x : Context) (o : Op) : Verdict :=
  firstFail [s.regions x [(pmRead, fld o.desc 16 8, fld o.desc 24 8)]] (.go { o with phase := .waitEarlier })

/-- SIGNAL: permission for a global address (R221), SOP, alignment and reserved address bits (R215, R236), WRITE over a
local word. -/
def checkSignal (s : State) (x : Context) (o : Op) : Verdict :=
  let a := fld o.desc 16 8
  let far := bitOf a 63
  firstFail
    [if far && lacks x 2 then some (.fail stNotPermitted 23) else none,
     lowest stBadFormat [(decide (fld o.desc 32 1 > 1), 32)],
     lowest stBadShape [(decide (a % 8 ≠ 0) || (far && bitsOf a 62 60 != 0), 16)],
     if far then (if gChip a = s.group.self then s.regions x [(pmWrite, gAddr a, 8)] else none)
     else s.regions x [(pmWrite, a, 8)]]
    (.go { o with phase := .waitEarlier })

/-- WAIT: CMP, alignment, READ over the word (R215, R265). -/
def checkWait (s : State) (x : Context) (o : Op) : Verdict :=
  let a := fld o.desc 16 8
  firstFail
    [lowest stBadFormat [(decide (fld o.desc 32 1 > 3), 32)],
     lowest stBadShape [(decide (a % 8 ≠ 0), 16)],
     s.regions x [(pmRead, a, 8)]]
    (.go { o with phase := .acting })

/-! ### WAIT (R286, R294) -/

/-- Whether a value satisfies a WAIT's condition: EQ, NE, GE and LT as unsigned 64-bit numbers. -/
def waitMet (d : Block) (v : Nat) : Bool :=
  let w := fld d 24 8
  match fld d 32 1 with
  | 0 => v == w
  | 1 => v != w
  | 2 => decide (v ≥ w)
  | _ => decide (v < w)

/-- One read of a WAIT: it completes at the first value that satisfies it; a poisoned word never does. -/
def State.pollWait (s : State) (o : Op) : State :=
  let (l, s) := s.loadHome (.cluster o.cluster o.who) (fld o.desc 16 8) 8
  let v := natOf l.bytes
  if !l.bad.isEmpty then s.putOp ({ o with d0 := 0, progT := s.nowN }.flag rfPoison)
  else if waitMet o.desc v then s.complete { o with d0 := 0 }
  else s.putOp { o with d0 := BitVec.ofNat 32 v, progT := s.nowN }

/-- The end of a WAIT's timeout, where it has one (R215, R58). -/
def waitDeadline (o : Op) : Option Nat :=
  let t := fld o.desc 36 4
  if t = 0 then none else some (o.tIssue + t)

/-! ### Meanings -/

/-- A started command that is done at once. -/
def startDone (s : State) (o : Op) : State := s.finish o
/-- A started command that something later carries on. -/
def startNone (s : State) (_ : Op) : State := s

def issueNop (s : State) (c : Nat) : State := s.issue c 0x00 checkBare startDone
def issueFence (s : State) (c : Nat) : State := s.issue c 0x01 checkWaiting startNone
def issueFlush (s : State) (c : Nat) : State := s.issue c 0x02 checkRange startNone
def issueInval (s : State) (c : Nat) : State := s.issue c 0x03 checkRange startNone
def issueSignal (s : State) (c : Nat) : State := s.issue c 0x04 checkSignal startNone
def issueWaitCmd (s : State) (c : Nat) : State := s.issue c 0x05 checkWait (fun s o => s.pollWait o)
def issueRemoteFence (s : State) (c : Nat) : State := s.issue c 0x06 checkWaiting startNone

/-- NOP completes with OK and does nothing else (R206). -/
def execNop (c : Fin 64) (s : State) : Done := .next (issueNop s c)
/-- FENCE holds later commands until every earlier one has completed (R284). -/
def execFence (c : Fin 64) (s : State) : Done := .next (issueFence s c)
/-- FLUSH_RANGE begins when every earlier command has completed (R284, R261). -/
def execFlushRange (c : Fin 64) (s : State) : Done := .next (issueFlush s c)
/-- INVAL_RANGE begins when every earlier command has completed (R284, R261). -/
def execInvalRange (c : Fin 64) (s : State) : Done := .next (issueInval s c)
/-- SIGNAL writes or adds to its word when every earlier command has completed (R285). -/
def execSignal (c : Fin 64) (s : State) : Done := .next (issueSignal s c)
/-- WAIT reads its word at issue and completes at once if it satisfies the condition (R286). -/
def execWait (c : Fin 64) (s : State) : Done := .next (issueWaitCmd s c)
/-- REMOTE_FENCE waits for the acknowledgement of every remote write of earlier commands (R284). -/
def execRemoteFence (c : Fin 64) (s : State) : Done := .next (issueRemoteFence s c)

/-- An operation of an opcode and phase, if it may finish. -/
def State.running? (s : State) (c : Nat) (idx : W32) (p : Op → Bool) : Option Op :=
  match s.op? c idx with
  | some o => if p o && s.mayFinish o then some o else none
  | none => none

/-- A range operation has walked the caches of the cluster set: dirty granules written back, lines left clean, or
invalidated (R261, R282). POISON_SEEN when a granule written back is poisoned (R226). -/
def State.rangeDone (s : State) (o : Op) (x : Context) : State :=
  let inv := dOpcode o.desc == 0x03
  let pick (l : CacheLine) : Bool := lineIn (fld o.desc 16 8) (fld o.desc 24 8) l.line
  let bad := (clustersOf x).any (fun n => (s.cache n).lines.any (fun l =>
    pick l && l.gran.any (fun g => g.dirty && g.poison)))
  let s := (clustersOf x).foldl (fun s n => s.flushLines o.who n inv pick) s
  s.complete (if bad then o.flag rfPoison else o)

/-- A range operation completes (R261, R282). -/
def execRangeOperationDone (c : Fin 64) (idx : W32) (s : State) : Done :=
  .next (match s.running? c idx (fun o => (dOpcode o.desc == 0x02 || dOpcode o.desc == 0x03) && o.phase == .acting),
      s.ctx c with
    | some o, some x => s.poisonWatch (s.rangeDone o x)
    | _, _ => s)

/-- A WAIT reads its word again (R286, R294). -/
def execWaitPoll (c : Fin 64) (idx : W32) (s : State) : Done :=
  .next (match s.running? c idx (fun o => dOpcode o.desc == 0x05 && o.phase == .acting) with
    | some o => s.pollWait o
    | none => s)

/-- A WAIT's timeout expires (R215, R286): WAIT_TIMEOUT, DETAIL_0 the last value read, or 0 when it was poisoned. -/
def execWaitTimeout (c : Fin 64) (idx : W32) (s : State) : Done :=
  .next (match s.running? c idx (fun o => dOpcode o.desc == 0x05 && o.phase == .acting) with
    | some o =>
      match waitDeadline o with
      | some t => if t ≤ s.nowN then s.complete (o.raise stWaitTimeout) else s
      | none => s
    | none => s)

/-- The opcodes of the *Opcodes* table (R206). -/
def knownOpcode (op : Nat) : Bool :=
  [0x00, 0x01, 0x02, 0x03, 0x04, 0x05, 0x06, 0x07, 0x10, 0x11, 0x12, 0x13, 0x14, 0x18, 0x20, 0x21, 0x28, 0x29, 0x30,
   0x31, 0x32, 0x33, 0x38, 0x39, 0x3C].contains op

/-- An entry whose opcode is not in the table: BAD_VERSION when DESC_VER is not 1, else BAD_OPCODE (R206, R219). -/
def issueUnknown (s : State) (c : Nat) : State :=
  match s.nextEntry c with
  | none => s
  | some (_, d) =>
    if knownOpcode (dOpcode d) then s
    else s.issue c (dOpcode d) (fun _ _ _ => .fail stBadOpcode 0) startNone

def execUnknownOpcode (c : Fin 64) (s : State) : Done := .next (issueUnknown s c)

/-- The descriptor a poisoned entry is taken for: OPCODE 0xFF, every other field 0 (R221). -/
def poisonedEntry : Block := 0xFF

/-- The completion of an entry in a poisoned granule: its fields are not read, POISON_CONSUMED (R221, R226). No field is read, so none
asks for an interrupt; so too where the second entry of a TRUG_SLOT_SET is the poisoned one and the first has INTERRUPT set, of which
R221 says only that it completes in the same way (R205; DESIGN CHOICE, log entry 73). -/
def State.issuePoisoned (s : State) (c : Nat) (x : Context) (bad : List Nat) (places : Nat) : State :=
  let s := s.notePoison (.cluster ((clustersOf x).head?.getD 0)) bad
  let o := (s.newOp c x poisonedEntry).flag rfPoison
  s.settleVerdict o places (.fail stPoison 0) startNone

/-- A poisoned entry at the head of a ring (R221). -/
def issuePoisonedHead (s : State) (c : Nat) : State :=
  match s.nextEntry c with
  | none => s
  | some (x, _) =>
    let bad := s.entryBad x x.sqHead
    if bad.isEmpty then s
    else if s.cqFree c x < 1 then s.noteWait c .completionEntries
    else s.issuePoisoned c x bad 1

def execPoisonedSubmissionEntry (c : Fin 64) (s : State) : Done := .next (issuePoisonedHead s c)

end Sys2Proof.Machine
end

