-- ==== Sys2Proof/Machine/Digest.lean ====
section
/-! DEFINITION. Tensor digests (R228, R544 to R548): formed from the output as written, held with the command, written
as its extension by DIGEST_DONE. -/

namespace Sys2Proof.Machine

open Sys2Proof

/-- A value as FP64 bits, subnormals at their exact value (R544). -/
def fp64Bits (v : FV) : Nat :=
  match v with
  | .fin neg m e =>
    if m ≠ 0 ∧ (m.log2 : Int) + e < -1022 then
      fp64.sign neg + (if -1074 ≤ e then m * 2 ^ (e + 1074).toNat else m / 2 ^ (-1074 - e).toNat)
    else fp64.encode false v
  | v => fp64.encode false v

/-- Order for MIN and MAX: by value, -0 below +0 (R545). -/
def digestLt (a b : FV) : Bool := a.lt b || (a.isZero && b.isZero && a.isNeg && !b.isNeg)

/-- The sums over the finite elements in sixteen lanes (R546), as FP64 words: sums and sums of squares. -/
def digestLanes (vs : List FV) : List Nat × List Nat :=
  (vs.zipIdx).foldl (fun (acc : List Nat × List Nat) e =>
    let k := e.2 % 16
    (acc.1.modify k (fun s => fp64.encode false ((fp64.decode s).add e.1)),
     acc.2.modify k (fun q => fp64.encode false ((e.1.mul e.1).add (fp64.decode q)))))
    (List.replicate 16 0, List.replicate 16 0)

/-- Neighbouring pairs added, lower lane on the left. -/
def pairUp (add : Nat → Nat → Nat) : List Nat → List Nat
  | a :: b :: t => add a b :: pairUp add t
  | l => l

/-- Lanes added in a tree of `k` levels (R546). -/
def laneTree (add : Nat → Nat → Nat) : Nat → List Nat → List Nat
  | 0, l => l
  | k + 1, l => laneTree add k (pairUp add l)

/-- The 64 bytes of a digest extension over elements, each with whether it lies in a poisoned granule, and the bytes
of the output as written (R228, R545 to R547). -/
def digestBytes (fmt : Nat) (es : List (FV × Bool)) (out : List Byte) : List Byte :=
  let good := (es.filter (fun e => !e.2)).map Prod.fst
  let num := good.filter (fun v => v != .nan)
  let mn := num.foldl (fun a v => if digestLt v a then v else a) (.inf false)
  let mx := num.foldl (fun a v => if digestLt a v then v else a) (.inf true)
  let (s, q) := digestLanes (num.filter FV.isFin)
  let count (p : FV → Bool) : Nat := (good.filter p).length
  bytesOf 6 good.length ++ bytesOf 6 (count (fun v => v == .nan))
  ++ bytesOf 6 (count (fun v => v == .inf false || v == .inf true)) ++ bytesOf 6 (count FV.isZero)
  ++ bytesOf 8 (fp64Bits mn) ++ bytesOf 8 (fp64Bits mx)
  ++ bytesOf 8 (unitAt 0 (laneTree fp64.addW 4 s) 0) ++ bytesOf 8 (unitAt 0 (laneTree fp64.addW 4 q) 0)
  ++ bytesOf 4 (if es.isEmpty then 0 else crc32c out)
  ++ [BitVec.ofNat 8 fmt, BitVec.ofNat 8 (bnat (es.any Prod.snd)), 0, 0]

/-- Element values of a row of codes, each with its block's scale where it has one (0xFF: NaN), and its poison. -/
def digestRow (fmt : Nat) (codes : List Nat) (scales : Option (Nat × List Nat)) (bad : List Bool) : List (FV × Bool) :=
  (codes.zipIdx).map (fun e =>
    let v := decodeElemExact fmt e.1
    (match scales with
     | none => v
     | some (bs, sc) =>
       match scaleExp (unitAt 0 sc (e.2 / bs)) with
       | none => .nan
       | some k => v.scale k,
     unitAt false bad e.2))

/-- Keep the digest of an output with its command. -/
def Op.withDigest (o : Op) (fmt : Nat) (es : List (FV × Bool)) (out : List Byte) : Op :=
  if willDigest o.desc then { o with bytes := digestBytes fmt es out } else o

/-- The digest of an output that its unit reads from memory once the command's writes are performed (R544): runs of dense
elements, each an address and a count. -/
def State.memDigest (s : State) (o : Op) (fmt : Nat) (runs : List (Nat × Nat)) : Op :=
  if !willDigest o.desc then o
  else
    let es := runs.flatMap (fun r =>
      let n := fmtBytes fmt r.2
      digestRow fmt ((elemsOf fmt (s.mem.read r.1 n)).take r.2) none
        ((upto r.2).map (fun k => (granules (r.1 + k * fmtBits fmt / 8) ((fmtBits fmt + 7) / 8)).any s.mem.isPoison)))
    o.withDigest fmt es (runs.flatMap (fun r => s.mem.read r.1 (fmtBytes fmt r.2)))

/-- The digest unit that forms a command's digest: that of the core's cluster for an array command, else of the lowest
cluster of the context's set (R544). -/
def State.digestCluster (s : State) (o : Op) : Nat :=
  if dOpcode o.desc = 0x10 ∨ dOpcode o.desc = 0x11 then o.cluster
  else ((s.ctx o.ctx).map lowCluster).getD o.cluster

/-- A digest is formed: its extension and record are written (R204, R223, R228); not while the unit is paused at shed
stage 3 (R548). While the CSP is down the core holds the completion (R484). -/
def execDigestDone (c : Fin 64) (idx : W32) (s : State) : Done :=
  .next (match s.running? c idx (fun o => o.phase == .digest) with
    | some o =>
      let n := s.digestCluster o
      if s.digPaused n then s
      else if !(s.proc (3 + o.cluster)).runs then s.finish o
      else
        let s := s.perfAdd { o.who with core := none, cluster := some n } 0x19 (fieldAt o.bytes 0 6)
        (s.finishNow o (some (padTo 64 o.bytes))).settle o.ctx
    | none => s)

end Sys2Proof.Machine
end

