-- ==== Sys2Proof/Machine/Accum.lean ====
section
/-! DEFINITION. Accumulator spaces, bindings, groups and tiles (R139 to R153): what a command finds in them at issue,
what starting it changes, whose turn it is, and ACC_LOAD, ACC_STORE, ACC_RELEASE. -/

namespace Sys2Proof.Machine

open Sys2Proof

/-! ### Words of tiles (R139, R141) -/

def State.tileWord (s : State) (core tile i j : Nat) : Nat := natOf (s.mem.read (tileAddr core tile i j) 4)
def State.tileBad (s : State) (core tile i j : Nat) : Bool := s.mem.isPoison (granule (tileAddr core tile i j))

/-- Write a tile word; `bad` sets the mark of its granule, and nothing here clears one (R141). -/
def State.setTile (s : State) (core tile i j v : Nat) (bad : Bool) : State :=
  let m := s.mem.write (tileAddr core tile i j) (bytesOf 4 v)
  s.setMem (if bad then m.setPoison (granule (tileAddr core tile i j)) true else m)

/-- The first address of a tile. -/
def tileBase (core tile : Nat) : Nat := tileAddr core tile 0 0

/-- Clear the poison marks of a tile (R141). -/
def Memory.clearMarks (m : Memory) (core tile : Nat) : Memory :=
  { m with poison := m.poison.filter (fun g => !decide (tileBase core tile ≤ 32 * g ∧ 32 * g < tileBase core tile + 0x1_0000)) }

/-- Set every word of a tile to zero; words that nothing has written read as the empty byte, zero. -/
def Memory.zeroTile (m : Memory) (core tile : Nat) : Memory :=
  { m with cells := m.cells.filter (fun e => !decide (tileBase core tile ≤ e.1 ∧ e.1 < tileBase core tile + 0x1_0000)) }

/-- Every word and mark of a core's tiles to zero (R144). -/
def Memory.zeroCore (m : Memory) (core : Nat) : Memory :=
  (upto 8).foldl (fun m t => (m.zeroTile core t).clearMarks core t) m

/-! ### Spaces (R142 to R145) -/

def Context.space? (x : Context) (n : Nat) : Option Space := x.spaces.find? (fun p => p.num == n)

/-- Whether another waiting space stands before (c, sp) in the order of R145 and could take core `k`. -/
def State.aheadFor (s : State) (c sp k : Nat) : Bool :=
  (s.coreWait.takeWhile (fun w => w != (c, sp))).any (fun w =>
    match s.ctx w.1 with
    | some y => y.clusters.getLsbD (k / 16)
    | none => false)

/-- The core for a command that names a space: that of its binding, or, for a command that binds, a free core: the one
the CSP picked where it is free, else the lowest (R27, R143). -/
def State.coreFor (s : State) (c : Nat) (x : Context) (sp pick : Nat) : Except IssueWait Nat :=
  match x.space? sp with
  | some p => if s.coreUp p.core then .ok p.core else .error (.cluster (p.core / 16))
  | none =>
    let free := (s.freeCores x).filter (fun k => !s.aheadFor c sp k)
    if free.contains pick then .ok pick
    else match free with
      | k :: _ => .ok k
      | [] => .error (.freeCore sp)

/-- The words and marks of a core's tiles at values the manual leaves open (R144; log entry 5). -/
def State.openTiles (s : State) (k : Nat) : State :=
  let (bs, s) := s.takeBytes 0x8_0000
  let (ms, s) := s.takeBytes 0x4000
  let base := tileAddr k 0 0 0
  s.setMem ((ms.zipIdx).foldl (fun m e => m.setPoison (granule base + e.2) (e.1 != 0)) (s.mem.write base bs))

/-- Bind a space to a core (R143); a core last serving another context has its tiles zeroed, else their contents are
open (R144). -/
def State.bindSpace (s : State) (c sp k : Nat) : State :=
  match s.ctx c with
  | none => s
  | some x =>
    if (x.space? sp).isSome then s
    else
      let s := if (s.core k).lastCtx = some c then s.openTiles k else s.setMem (s.mem.zeroCore k)
      let s := s.modCore k (fun r => { r with bound := some (c, sp), lastCtx := some c })
      let s := { s with coreWait := s.coreWait.filter (fun w => w != (c, sp)) }
      s.modCtx c (fun x => { x with spaces := x.spaces ++ [{ num := sp, core := k, release := false, groups := [] }] })

/-- Change a space of a context. -/
def State.modSpace (s : State) (c sp : Nat) (f : Space → Space) : State :=
  s.modCtx c (fun x => { x with spaces := modFirst (fun p => p.num == sp) f x.spaces })

/-- The groups open in a space, in issue order (R147). -/
def openGroups (x : Context) (sp : Nat) : List Group := ((x.space? sp).map (fun p => p.groups)).getD []

def groupAt (x : Context) (sp g : Nat) : Option Group := (openGroups x sp).find? (fun q => q.id == g)

def overlap (a b : List Nat) : Bool := a.any (fun t => b.contains t)

/-! ### Turns (R148 to R150) -/

/-- Commands that read or write tiles: array operations, ACC_LOAD, ACC_STORE. -/
def tileOp (d : Block) : Bool := [0x10, 0x11, 0x12, 0x13].contains (dOpcode d)

/-- Whether a command of a space still has its tile work before it. -/
def Op.tilesOpen (o : Op) : Bool :=
  tileOp o.desc && (o.phase == .running || o.phase == .held || o.phase == .shedHeld || o.phase == .epilogue || o.phase == .restart)

/-- Whether two commands with tile work before them run under one binding of a space: of one context, on one core (R143). -/
def Op.shares (e o : Op) : Bool := e.ctx == o.ctx && e.tilesOpen && e.core == o.core

def isStore (d : Block) : Bool := dOpcode d == 0x13

/-- A listed tile belongs to a closed group whose END's epilogue has not read it yet (R148). -/
def State.tilesBusy (s : State) (c : Nat) (core : Option Nat) (ts : List Nat) : Bool :=
  s.ops.any (fun e => e.ctx == c && e.tilesOpen && core.isSome && e.core == core && overlap e.tiles ts
    && (dOpcode e.desc == 0x10 || dOpcode e.desc == 0x11) && mfEnd e.desc)

/-- Whether an earlier command holds this one's tile work: it touches the tiles and has not done with them (R149). A held ACC_STORE does
not hold the commands of the groups it waits for, and reads do not hold reads (R150). -/
def State.accBlocked (s : State) (o : Op) : Bool :=
  ((s.ops.takeWhile (fun e => !e.is o.ctx o.idx)).filter (fun e => e.shares o && overlap e.tiles o.tiles)).any (fun e =>
      !(isStore e.desc && (isStore o.desc
        || (e.phase == .held && o.taken != 0 && !mfStart o.desc && overlap e.gtiles o.gtiles))))

/-- Whether a held ACC_STORE may read tile `t` of those it found in open groups, `gtiles` (R150): the group is closed and no operation of
it is left. Once a later START has taken the tile, R148 has let it pass only after the END's epilogue. -/
def State.tileLeft (s : State) (x : Context) (o : Op) (t : Nat) : Bool :=
  let later := ((s.ops.dropWhile (fun e => !e.is o.ctx o.idx)).drop 1).filter (fun e => e.shares o && !isStore e.desc)
  later.any (fun e => mfStart e.desc && e.tiles.contains t)
  || (!((openGroups x (dSpace o.desc)).any (fun g => g.tiles.contains t)) && !(later.any (fun e => e.gtiles.contains t)))

/-- Whether a held ACC_STORE may read (R150): no earlier command is left on its tiles, and the groups that were open are gone. -/
def State.storeFree (s : State) (x : Context) (o : Op) : Bool := !s.accBlocked o && o.gtiles.all (s.tileLeft x o)

/-! ### The checks that commands on tiles share -/

/-- A tile list that names a tile twice, or a count outside 1 to 8 (R147, R208). -/
def badTiles (d : Block) : Bool :=
  decide (dTileCount d < 1 ∨ 8 < dTileCount d) || decide ((dTiles d).eraseDups.length ≠ (dTiles d).length)

/-- A command with START: its group id must be free, no listed tile in an open group, and every listed tile done with
(R148). -/
def State.startCheck (s : State) (c : Nat) (x : Context) (d : Block) : Option Verdict :=
  let sp := dSpace d
  if (groupAt x sp (dGroup d)).isSome then some (.fail stAccConflict 0)
  else if (openGroups x sp).any (fun g => overlap g.tiles (dTiles d)) then some (.fail stAccConflict 0)
  else if s.tilesBusy c ((x.space? sp).map (fun p => p.core)) (dTiles d) then some (.wait .accumulator)
  else none

/-- The kind code of a group as FMT_OUT of an ACC_LOAD gives it (R151). -/
def kindOf (f : Nat) : Option GKind :=
  if f = 7 then some .fp32 else if f = 8 then some .int32 else if f = 9 then some .dd else none

/-- ACC_LOAD and ACC_STORE at issue (R148, R150, R151, R208). -/
def checkAcc (pick : Nat) (s : State) (x : Context) (o : Op) : Verdict :=
  let d := o.desc
  let load := dOpcode d == 0x12
  let start := load && mfStart d
  let f := dFmtOut d
  let n := dTileCount d
  let sp := dSpace d
  let ts := dTiles d
  let owners := (openGroups x sp).filter (fun g => overlap g.tiles ts)
  let place (o : Op) : Verdict :=
    match s.coreFor o.ctx x sp pick with
    | .ok k => .go { o with
                     core := some k
                     cluster := k / 16
                     tiles := ts
                     outs := if load then [] else [(dA d, 0x1_0000 * n)] }
    | .error w => .wait w
  firstFail
    [lowest stBadFormat
       [(start && (kindOf f).isNone, 49), (!load && dDigest d && !(f == 0 || f == 7 || f == 8), 49)],
     lowest stBadShape
       [(decide (sp > 127), 12), (badTiles d, 52), (start && f == 9 && n != 6, 52)],
     s.regions x [(if load then pmRead else pmWrite, dA d, 0x1_0000 * n)],
     if start then s.startCheck o.ctx x d
     else if load then
       (match owners with
        | [] => none
        | [g] => if ts.all g.tiles.contains then none else some (.fail stAccConflict 0)
        | _ => some (.fail stAccConflict 0))
     else none]
    (if start then place { o with taken := dGroup d + 1, gtiles := ts }
     else match owners with
       | g :: _ =>
        place { o with
                taken := g.id + 1
                gtiles := if load then g.tiles else ts.filter (fun t => owners.any (fun g => g.tiles.contains t))
                gkind := some g.kind
                phase := if load then .running else .held }
       | [] => place o)

/-- Starting a command on a space: the binding, the group it opens. -/
def startAcc (s : State) (o : Op) : State :=
  let s := s.bindSpace o.ctx (dSpace o.desc) (o.core.getD 0)
  let s := if dOpcode o.desc = 0x12 ∧ mfStart o.desc then
      s.modSpace o.ctx (dSpace o.desc) (fun p =>
        { p with groups := p.groups ++ [{ id := dGroup o.desc, kind := (kindOf (dFmtOut o.desc)).getD .fp32, tiles := o.tiles }] })
    else s
  s.startOnCore o

def issueAccLoad (s : State) (c pick : Nat) : State := s.issue c 0x12 (checkAcc pick) startAcc
def issueAccStore (s : State) (c pick : Nat) : State := s.issue c 0x13 (checkAcc pick) startAcc

/-- ACC_LOAD opens a group with loaded values, or loads or adds into tiles (R151). -/
def execAccLoad (c : Fin 64) (pick : Fin 128) (s : State) : Done := .next (issueAccLoad s c pick)
/-- ACC_STORE copies tiles to memory, held while a tile is in an open group (R150, R151). -/
def execAccStore (c : Fin 64) (pick : Fin 128) (s : State) : Done := .next (issueAccStore s c pick)

/-- ACC_RELEASE at issue: only ACC_SPACE is checked (R142, R206). -/
def checkRelease (_ : State) (_ : Context) (o : Op) : Verdict :=
  firstFail [lowest stBadShape [(decide (dSpace o.desc > 127), 12)]] (.go o)

/-- ACC_RELEASE completes: its space, if bound, is released (R143). -/
def startRelease (s : State) (o : Op) : State :=
  (s.modSpace o.ctx (dSpace o.desc) (fun p => { p with release := true })).finish o

def issueAccRelease (s : State) (c : Nat) : State := s.issue c 0x14 checkRelease startRelease

/-- ACC_RELEASE releases its space; on an unbound space it completes with OK and has no effect (R143). -/
def execAccRelease (c : Fin 64) (s : State) : Done := .next (issueAccRelease s c)

/-! ### The transfers of ACC_LOAD and ACC_STORE (R151) -/

/-- The kind under which ACCUMULATE adds: that of the group the command joined; INT32 outside any group (R151). -/
def accKind (o : Op) : GKind := o.gkind.getD .int32

/-- One word added to a tile word under a kind that is not double-dig: the sum, and whether it wrapped (R138, R151). -/
def addWord (k : GKind) (a b : Nat) : Nat × Bool :=
  match k with
  | .fp32 => (fp32.addW a b, false)
  | _ =>
    let t := signed 32 a + signed 32 b
    (wrapTo 32 t, decide (t < -(2 ^ 31 : Int) ∨ t > 2 ^ 31 - 1))

/-- Whether `n` bytes at an address lie in a granule that came poisoned (R249). -/
def Loaded.hits (l : Loaded) (a n : Nat) : Bool := (granules a n).any l.bad.contains

/-- The words of a tile's 64 KiB with whether each lies in a poisoned granule, as (i, j, word, bad). -/
def tileCells (base : Nat) (l : Loaded) : List (Nat × Nat × Nat × Bool) :=
  (upto 16384).map (fun w => (w / 128, w % 128, fieldAt l.bytes (4 * w) 4, l.hits (base + 4 * w) 4))

/-- Load one tile's block: overwriting words and marks, or adding words (a poisoned addend marks, R141). -/
def State.loadTile (s : State) (core tile base : Nat) (acc : Option GKind) (l : Loaded) : Bool × State :=
  match acc with
  | none =>
    let s := s.setMem ((s.mem.write (tileBase core tile) l.bytes).clearMarks core tile)
    let s := s.setMem (l.bad.foldl (fun m g =>
      -- the block and the tile start at granule boundaries only when the source does; a mark covers what it overlaps
      ((granules (tileBase core tile + (max base (32 * g) - base)) (min (base + 0x1_0000) (32 * g + 32) - max base (32 * g)))).foldl
        (fun m h => m.setPoison h true) m) s.mem)
    (false, s)
  | some k =>
    (tileCells base l).foldl (fun (acc : Bool × State) (w : Nat × Nat × Nat × Bool) =>
      let (i, j, v, bad) := w
      let (t, wrap) := addWord k (acc.2.tileWord core tile i j) v
      (acc.1 || wrap, acc.2.setTile core tile i j t bad)) (false, s)

/-- The 128-bit value of element (i, j) in tiles 2 to 5 of a list (R166). -/
def State.ddValue (s : State) (core : Nat) (ts : List Nat) (i j : Nat) : Int :=
  signed 128 ((upto 4).foldl (fun v t => v + s.tileWord core (unitAt 0 ts (2 + t)) i j * 2 ^ (32 * t)) 0)

def State.ddBad (s : State) (core : Nat) (ts : List Nat) (i j : Nat) : Bool :=
  (upto 4).any (fun t => s.tileBad core (unitAt 0 ts (2 + t)) i j)

/-- Write a 128-bit value, modulo 2^128. -/
def State.setDd (s : State) (core : Nat) (ts : List Nat) (i j : Nat) (v : Int) (bad : Bool) : State :=
  let w := wrapTo 128 v
  (upto 4).foldl (fun s t => s.setTile core (unitAt 0 ts (2 + t)) i j (w / 2 ^ (32 * t) % 2 ^ 32) bad) s

/-- ACCUMULATE in a double-dig group: the loaded tiles 2 to 5 as 128-bit values are added to the group's, modulo 2^128;
tiles 0 and 1 are working tiles whose contents are not used (R151, R166). Tiles the command does not list add 0. -/
def State.accDd (s : State) (core : Nat) (gts ts : List Nat) (base : Nat) (ls : List Loaded) : Bool × State :=
  let word (t i j : Nat) : Nat × Bool :=
    match ts.findIdx? (fun x => x == unitAt 0 gts (2 + t)) with
    | some k =>
      let l := unitAt { bytes := [], bad := [] } ls k
      let off := 4 * (128 * i + j)
      (fieldAt l.bytes off 4, l.hits (base + 0x1_0000 * k + off) 4)
    | none => (0, false)
  (upto 16384).foldl (fun (acc : Bool × State) e =>
    let i := e / 128
    let j := e % 128
    let v := signed 128 ((upto 4).foldl (fun v t => v + (word t i j).1 * 2 ^ (32 * t)) 0)
    let bad := (upto 4).any (fun t => (word t i j).2)
    let t := acc.2.ddValue core gts i j + v
    (acc.1 || decide (t < -(2 ^ 127 : Int) ∨ t > 2 ^ 127 - 1), acc.2.setDd core gts i j t bad)) (false, s)

/-- Read consecutive blocks of memory, with the class of the drain (R151). -/
def State.loadBlocks (s : State) (w : Who) (cl base sz : Nat) : Nat → List Loaded × State
  | 0 => ([], s)
  | n + 1 =>
    let (ls, s) := s.loadBlocks w cl base sz n
    let (l, s) := s.loadDev w cl true (base + sz * n) sz
    (ls ++ [l], s)

/-- ACC_LOAD's transfer (R141, R151). -/
def State.accLoadDone (s : State) (o : Op) : State :=
  let core := o.core.getD 0
  let base := dA o.desc
  let (ls, s) := s.loadBlocks o.who o.cluster base 0x1_0000 o.tiles.length
  let bad := ls.any (fun l => !l.bad.isEmpty)
  let acc := mfAcc o.desc && !mfStart o.desc
  let k := accKind o
  let (wrap, s) :=
    if acc && k == .dd then s.accDd core o.gtiles o.tiles base ls
    else
      (o.tiles.zipIdx).foldl (fun (a : Bool × State) (t : Nat × Nat) =>
        let (w, s) := a.2.loadTile core t.1 (base + 0x1_0000 * t.2) (if acc then some k else none)
          (unitAt { bytes := [], bad := [] } ls t.2)
        (a.1 || w, s)) (false, s)
  s.complete ((o.flag (flagIf wrap rfAccWrap)).flag (flagIf bad rfPoison))

/-- ACC_STORE's transfer: the tiles' bytes unchanged, poison wherever a mark is set (R141, R151, R610). -/
def State.accStoreDone (s : State) (o : Op) : State :=
  let core := o.core.getD 0
  let base := dA o.desc
  let bad := o.tiles.any (fun t => !(s.mem.poisonIn (tileBase core t) 0x1_0000).isEmpty)
  let f := if dFmtOut o.desc = 8 then 8 else 7
  let raw := o.tiles.map (fun t => s.mem.read (tileBase core t) 0x1_0000)
  let o := if willDigest o.desc then o.withDigest f
      ((o.tiles.zip raw).flatMap (fun t => digestRow f (elemsOf f t.2) none
        ((upto 16384).map (fun w => s.mem.isPoison (granule (tileBase core t.1 + 4 * w)))))) raw.flatten
    else o
  let s := (o.tiles.zipIdx).foldl (fun s (t : Nat × Nat) =>
    let dst := base + 0x1_0000 * t.2
    let marks := (s.mem.poisonIn (tileBase core t.1) 0x1_0000).flatMap (fun g =>
      granules (dst + (32 * g - tileBase core t.1)) 32)
    s.storeDev o.who o.cluster true dst (s.mem.read (tileBase core t.1) 0x1_0000) marks) s
  s.complete (o.flag (flagIf bad rfPoison))

/-- An ACC_LOAD or ACC_STORE transfer completes, in the order of its tiles' users (R149 to R151). -/
def execAccTransferDone (c : Fin 64) (idx : W32) (s : State) : Done :=
  .next (match s.running? c idx (fun o => (dOpcode o.desc == 0x12 && o.phase == .running)
      || (dOpcode o.desc == 0x13 && (o.phase == .running || o.phase == .held))), s.ctx c with
    | some o, some x =>
      if dOpcode o.desc = 0x12 then (if s.accBlocked o then s else s.poisonWatch (s.accLoadDone o))
      else if o.phase = .held then (if s.storeFree x o then s.poisonWatch (s.accStoreDone o) else s)
      else if s.accBlocked o then s else s.poisonWatch (s.accStoreDone o)
    | _, _ => s)

end Sys2Proof.Machine
end

