-- ==== Sys2Proof/Machine/Functions.lean ====
section
/-! DEFINITION. The functions that the manual fixes by an error bound (R159, R173, R174, R368): their exact values to 256 bits of
fraction, and the choice among the words within the bound. The choice is the function's own, the same for the same operand; which word
it takes is open (log entry 6). -/

namespace Sys2Proof.Machine

open Sys2Proof

/-! ### Numbers with 256 bits of fraction -/

def fxBits : Nat := 256
def fxOne : Int := 2 ^ 256
def fxMul (a b : Int) : Int := a * b / fxOne
def fxDiv (a b : Int) : Int := a * fxOne / b

/-- A finite value in this form, cut. -/
def fxOf (neg : Bool) (m : Nat) (e : Int) : Int :=
  let k := e + 256
  let q : Int := if 0 ≤ k then (m : Int) * 2 ^ k.toNat else (m : Int) / 2 ^ (-k).toNat
  if neg then -q else q

/-- A number in this form as a value. -/
def fxValue (x : Int) : FV := .fin (decide (x < 0)) x.natAbs (-256)

/-- The sum of `t`, `step 1 t`, `step 2 (step 1 t)` and so on: `k` terms. -/
def fxSeries (step : Nat → Int → Int) : Nat → Nat → Int → Int
  | 0, _, _ => 0
  | k + 1, n, t => t + fxSeries step k (n + 1) (step n t)

/-- The sum of z^(2n+1) / (2n+1) with signs alternating where `alt`: the arc tangents. -/
def fxAtan (alt : Bool) (z : Int) : Nat → Nat → Int → Int
  | 0, _, _ => 0
  | k + 1, n, t => t / (2 * n + 1 : Nat) + fxAtan alt z k (n + 1) (let u := fxMul (fxMul t z) z
      if alt then -u else u)

def fxLn2 : Int := 2 * fxAtan false (fxOne / 3) 85 0 (fxOne / 3)
def fxPi : Int := 16 * fxAtan true (fxOne / 5) 60 0 (fxOne / 5) - 4 * fxAtan true (fxOne / 239) 20 0 (fxOne / 239)

/-- The natural logarithm of m * 2^e, m not zero. -/
def fxLn (m : Nat) (e : Int) : Int :=
  let y := fxOf false m (-(m.log2 : Int))
  let z := fxDiv (y - fxOne) (y + fxOne)
  2 * fxAtan false z 85 0 z + ((m.log2 : Int) + e) * fxLn2

/-- The exponential of a number in this form; past 2^12 either way, a value beyond every format. -/
def expValue (x : Int) : FV :=
  if 4096 * fxOne ≤ x then .fin false 1 5000
  else if x ≤ -(4096 * fxOne) then .fin false 1 (-6000)
  else
    let k := x / fxLn2
    let r := x - k * fxLn2
    .fin false (fxSeries (fun n t => fxMul t r / (n : Nat)) 64 1 fxOne).toNat (k - 256)

def oneValue : FV := .fin false 1 0

/-! ### The exact functions of a finite value -/

/-- e^x; `big` is decided by the exponent, so that no huge number is formed. -/
def expOf (neg : Bool) (m : Nat) (e : Int) : FV :=
  if 12 ≤ (m.log2 : Int) + e then (if neg then .fin false 1 (-6000) else .fin false 1 5000) else expValue (fxOf neg m e)

/-- 1 / (1 + e^-x). -/
def sigmoidOf (neg : Bool) (m : Nat) (e : Int) : FV := oneValue.div (oneValue.add (expOf (!neg) m e))

/-- tanh x = (e^2x - 1) / (e^2x + 1). -/
def tanhOf (neg : Bool) (m : Nat) (e : Int) : FV :=
  let t := expOf neg m (e + 1)
  (t.sub oneValue).div (t.add oneValue)

/-- The standard normal distribution function, for values within 16 of zero (past it, 0 or 1 to every bit that a format holds). -/
def normalOf (neg : Bool) (m : Nat) (e : Int) : FV :=
  if 4 ≤ (m.log2 : Int) + e then (if neg then .fin false 1 (-400) else oneValue)
  else
    let x := fxOf neg m e
    let q := fxMul x x
    let sum := fxSeries (fun n t => fxMul t q / (2 * n + 1 : Nat)) 800 1 x
    let root : Int := isqrt ((2 ^ 768 : Nat) / (2 * fxPi).toNat) 260 0
    let body := (((fxValue sum).mul (expValue (-(q / 2)))).mul (fxValue root)).add (.fin false 1 (-1))
    body

/-- The cosine of a value within a few turns of zero. -/
def cosOf (m : Nat) (e : Int) : FV :=
  let x := fxOf false m e
  let q := fxMul x x
  fxValue (fxSeries (fun n t => -(fxMul t q) / ((2 * n - 1) * (2 * n) : Nat)) 100 1 fxOne)

/-- a^b for a positive a: e^(b ln a). -/
def powOf (ma : Nat) (ea : Int) (nb : Bool) (mb : Nat) (eb : Int) : FV :=
  let l := fxLn ma ea
  match (fxValue l).mul (.fin nb mb eb) with
  | .fin n m e => expOf n m e
  | v => v

/-! ### The word within the bound -/

/-- The word of a function whose exact value at an operand is `x`, within `k` ulp of it: the candidate where it lies there, else the
nearest word. A result past the overflow boundary is infinite (R75, R174). -/
def FloatFmt.within (f : FloatFmt) (k : Nat) (x : FV) (cand : Nat) : Nat :=
  let near := f.encode false x
  let c := f.decode cand
  match x with
  | .fin _ m e =>
    let ex := max ((m.log2 : Int) + e) (1 - (f.bias : Int))
    -- the bound, with a 2^-20 of an ulp for the cut of `x`
    let room : FV := .fin false (k * 2 ^ 20 + 1) (ex - f.mbits - 20)
    if m ≠ 0 ∧ (f.decode near).isFin = true ∧ c.isFin = true ∧ room.lt (c.sub x).abs = false then f.encode false c else near
  | _ => near

end Sys2Proof.Machine
end

