-- ==== Sys2Proof/Machine/Sides.lean ====
section
/-! DEFINITION. The sides of a DMA transfer (R182, R212 to R214, R609), and the fill pointer to which an array operation or a vector command
binds its streaming operand (R110, R186, R209). -/

namespace Sys2Proof.Machine

open Sys2Proof

/-- One side of a transfer: kind, first address, format, counts and byte strides of its three dimensions. -/
structure Side where
  kind : Nat
  addr : Nat
  fmt  : Nat
  c0   : Nat
  c1   : Nat
  c2   : Nat
  s0   : Int
  s1   : Int
  s2   : Int
deriving DecidableEq, Repr

def xShape (d : Block) : Bool := fldBit d 49 0
def xSat (d : Block) : Bool := fldBit d 49 1
def xOutBlk (d : Block) : Bool := fldBit d 49 2
def xBlk32 (d : Block) : Bool := fldBit d 49 3
def xStream (d : Block) : Option Nat := if fldBit d 48 3 then some (fldBits d 48 1 2 0) else none
def xShapeAddr (d : Block) : Nat := fld d 40 8
def xElems (d : Block) : Nat := fld d 36 4
def xScaleAddr (d : Block) : Nat := fld d 56 6

/-- The address of a side as its kind reads it (R213): a core store offset in bits [20:0], the address on the device of
a global address, else all 64 bits. -/
def sideAddr (kind a : Nat) : Nat := if kind = 0 then a % 0x20_0000 else if kind = 3 then gAddr a else a

/-- A side from a descriptor and its shape extension: `w` 0 the source, 1 the destination (R212, R214). -/
def sideOf (d e : Block) (w : Nat) : Side :=
  let kind := fldBits d (32 + w) 1 2 0
  let fmt := fld d (34 + w) 1
  let base := sideAddr kind (fld d (16 + 8 * w) 8)
  if xShape d then
    let c (i : Nat) : Nat := fld e (20 * w + 2 * i) 2
    let st (i : Nat) : Int := signed 32 (fld e (8 + 20 * w + 4 * i) 4)
    { kind := kind, addr := base, fmt := fmt, c0 := c 0, c1 := c 1, c2 := c 2, s0 := st 0, s1 := st 1, s2 := st 2 }
  else
    { kind := kind, addr := base, fmt := fmt, c0 := xElems d, c1 := 1, c2 := 1, s0 := (fmtBits fmt / 8 : Nat), s1 := 0, s2 := 0 }

def dmaSrc (o : Op) : Side := sideOf o.desc o.ext 0
def dmaDst (o : Op) : Side := sideOf o.desc o.ext 1

def Side.elems (x : Side) : Nat := x.c0 * x.c1 * x.c2
/-- Bytes of one run of dimension 0 (R609). -/
def Side.runBytes (x : Side) : Nat := fmtBytes x.fmt x.c0
def Side.runs (x : Side) : Nat := x.c1 * x.c2
/-- Bytes of a side in element order, its runs one after another. -/
def Side.bytes (x : Side) : Nat := x.runBytes * x.runs
/-- Where a run begins. -/
def Side.runAddr (x : Side) (r : Nat) : Int := x.addr + x.s1 * (r % x.c1 : Nat) + x.s2 * (r / x.c1 : Nat)
/-- Whether a run lies in consecutive bytes; the stride of dimension 0 is disregarded for E2M1 (R609). -/
def Side.dense (x : Side) : Bool := x.fmt == 3 || x.s0 == (fmtBits x.fmt / 8 : Nat) || x.c0 == 1

/-- The runs of consecutive bytes of a side, in element order: address and length. -/
def Side.segs (x : Side) : List (Int × Nat) :=
  (upto x.runs).flatMap (fun r =>
    if x.dense then [(x.runAddr r, x.runBytes)]
    else (upto x.c0).map (fun i => (x.runAddr r + x.s0 * (i : Nat), fmtBits x.fmt / 8)))

/-- The width of a side's addresses: 48 bits on another device, else 64. -/
def Side.wrap (x : Side) (a : Int) : Nat := wrapTo (if x.kind = 3 then 48 else 64) a

/-- The pieces of a side that hold bytes `lo` to `hi` - 1 of it, in element order: address, bytes. -/
def piecesOf : List (Int × Nat) → Nat → Nat → List (Int × Nat)
  | [], _, _ => []
  | (a, n) :: t, lo, hi =>
    let rest := piecesOf t (lo - n) (hi - n)
    if hi = 0 then []
    else if lo < n ∧ lo < min n hi then (a + (lo : Nat), min n hi - lo) :: rest
    else rest

def Side.pieces (x : Side) (lo hi : Nat) : List (Nat × Nat) := (piecesOf x.segs lo hi).map (fun p => (x.wrap p.1, p.2))

/-- A local side that leaves the core store (R171). -/
def Side.leaves (x : Side) : Bool :=
  x.kind == 0 && x.segs.any (fun p => decide (p.1 < 0 ∨ (0x20_0000 : Int) < p.1 + (p.2 : Nat)))

/-- Whether an address field of a descriptor is on another device (R236, R237). -/
def State.isRemote (s : State) (kind a : Nat) : Bool := kind == 3 && gChip a != s.group.self

/-! ### Binding to the fill pointer (R110, R186, R209) -/

/-- The submission index a BIND names: the most recent earlier DMA command with that index modulo 2^16 whose entry is still in the
ring (R209). -/
def bindTarget (x : Context) (b : Nat) : Option W32 :=
  x.dmas.find? (fun i => i.toNat % 65536 == b && decide ((x.sqTail - i).toNat ≤ 2 ^ x.sqLog2))

/-- What a transfer has not delivered yet: the destination bytes from its fill pointer on, and its block scales, which it writes at its
end. -/
def State.unfilled (s : State) (t : Op) : List (Nat × Nat) :=
  let dst := dmaDst t
  let a (p : Nat) : Nat := if dst.kind = 0 then storeAddr (t.core.getD 0) p else p
  if dst.kind = 4 ∨ s.isRemote dst.kind (fld t.desc 24 8) then []
  else (dst.pieces t.fill dst.bytes).map (fun p => (a p.1, p.2))
    ++ (if xOutBlk t.desc then [(xScaleAddr t.desc, ceilDiv dst.c0 (blkSize (xBlk32 t.desc)) * dst.runs)] else [])

/-- The transfer a bound command waits for, while it is in progress. -/
def State.bound? (s : State) (o : Op) (b : Nat) : Option Op :=
  s.ops.find? (fun t => t.ctx == o.ctx && dOpcode t.desc == 0x20 && t.idx.toNat % 65536 == b
    && (t.phase == .running || t.phase == .restart || (match t.phase with
      | .grantWait _ _ _ => true
      | _ => false))
    && decide (1 ≤ (o.idx - t.idx).toNat ∧ (o.idx - t.idx).toNat ≤ 65536))

/-- Whether the bytes that a bound operand lies in are delivered: none of its ranges meets what the transfer has not delivered. -/
def State.bindReady (s : State) (o : Op) (b : Nat) (rs : List (Nat × Nat)) : Bool :=
  match s.bound? o b with
  | some t => !((s.unfilled t).any (fun p => rs.any (fun r => decide (p.1 < r.1 + r.2 ∧ r.1 < p.1 + p.2))))
  | none => true

end Sys2Proof.Machine
end

