-- ==== Sys2Proof/Machine/Matrix.lean ====
section
/-! DEFINITION. The matrix arrays: products and the summation window (R79, R134 to R138), MATMUL and MATMUL_DD at issue
(R95 to R101, R163, R208 to R210), their array work, and the epilogue (R157 to R161, R166, R167). -/

namespace Sys2Proof.Machine

open Sys2Proof

/-! ### One group of products (R79, R135, R137) -/

/-- One pair of elements with the exponents of their block scales; none is a NaN scale. -/
structure Pair where
  a  : FV
  b  : FV
  ea : Option Int
  eb : Option Int
deriving DecidableEq, Repr

/-- The product of a pair, its scale exponents applied (R79, R86). -/
def Pair.prod (p : Pair) : FV :=
  match p.ea, p.eb with
  | some x, some y => (p.a.mul p.b).scale (x + y)
  | _, _ => .nan

/-- The exponent e_p of a non-zero finite product: the elements' unbiased exponents and the scales (R135). -/
def Pair.expo (p : Pair) : Int := p.a.log2 + p.b.log2 + p.ea.getD 0 + p.eb.getD 0

/-- A product as it enters the window: the floor of p / 2^(emax - 40) (R135). -/
def windowEntry (emax : Int) (v : FV) : Int :=
  match v with
  | .fin neg m e =>
    let m' : Int := if neg then -(m : Int) else m
    let k := e - (emax - 40)
    if 0 ≤ k then m' * 2 ^ k.toNat else m' / 2 ^ (-k).toNat
  | _ => 0

/-- The value of a group before its rounding (R79, R135, R137). -/
def groupValue (ps : List Pair) : FV :=
  let vs := ps.map Pair.prod
  if vs.any (fun v => v == .nan) then .nan
  else
    let pos := vs.any (fun v => v == .inf false)
    let neg := vs.any (fun v => v == .inf true)
    if pos && neg then .nan
    else if pos then .inf false
    else if neg then .inf true
    else
      let live := ps.filter (fun p => !p.prod.isZero)
      match live with
      | [] => .fin (vs.all FV.isNeg) 0 0
      | h :: t =>
        let emax := t.foldl (fun m p => max m p.expo) h.expo
        let sum : Int := (live.map (fun p => windowEntry emax p.prod)).foldl (· + ·) 0
        .fin (decide (sum < 0)) sum.natAbs (emax - 40)

/-- An FP32 accumulator after the products of an operation, group by group (R134, R137). -/
def dotF (acc : Nat) (ps : List Pair) : Nat :=
  (chunks 32 ps.length ps).foldl (fun acc g => fp32.addW acc (fp32.encode false (groupValue g))) acc

/-- An INT32 accumulator after the products, each group's exact sum added modulo 2^32, with whether an addition left
the range (R134, R138; log entry 18). -/
def dotI (acc : Int) (ps : List (Int × Int)) : Int × Bool :=
  (chunks 32 ps.length ps).foldl (fun (r : Int × Bool) g =>
    let t := r.1 + g.foldl (fun s p => s + p.1 * p.2) 0
    (signed 32 (wrapTo 32 t), r.2 || decide (t < -(2 ^ 31 : Int) ∨ t > 2 ^ 31 - 1))) (acc, false)

/-! ### Operands in memory -/

/-- Rows of `bytes` bytes at a stride, read with the class given. -/
def State.loadRows (s : State) (w : Who) (cl : Nat) (cached : Bool) (base stride bytes : Nat) : Nat → List Loaded × State
  | 0 => ([], s)
  | n + 1 =>
    let (ls, s) := s.loadRows w cl cached base stride bytes n
    let (l, s) := s.loadDev w cl cached (base + stride * n) bytes
    (ls ++ [l], s)

def noLoad : Loaded := { bytes := [], bad := [] }

/-- Whether element `k` of a dense row at an address lies in a poisoned granule. -/
def elemBad (fmt base : Nat) (l : Loaded) (k : Nat) : Bool :=
  let lo := base + k * fmtBits fmt / 8
  let hi := base + ((k + 1) * fmtBits fmt + 7) / 8
  l.bad.any (fun g => decide (32 * g < hi ∧ lo < 32 * g + 32))

/-- The first `n` element codes of a row. -/
def rowCodes (fmt n : Nat) (l : Loaded) : List Nat := (elemsOf fmt l.bytes).take n

/-- Ranges of a strided region check: one where the rows are dense (R219). -/
def rowRanges (p base stride bytes n : Nat) : List (Nat × Nat × Nat) :=
  if stride = bytes then [(p, base, bytes * n)] else (upto n).map (fun i => (p, base + stride * i, bytes))

/-! ### MATMUL at issue -/

def isFp8 (f : Nat) : Bool := f == 1 || f == 2

/-- Whether (stationary, streaming) is a pair of the *Array operand pairs* table (R62). -/
def pairOk (st sm : Nat) : Bool :=
  (isFp8 st && isFp8 sm) || (st == 3 && isFp8 sm) || (st == 5 && sm == 5) || (st == 6 && sm == 6) || (st == 4 && sm == 4)

/-- The stationary and streaming formats: A is stationary in IS, B otherwise (R97). -/
def roles (d : Block) : Nat × Nat := if dDF d = 1 then (dFmtA d, dFmtB d) else (dFmtB d, dFmtA d)

def badFmtOf (f : Nat) : Bool := !fmtKnown f

/-- Check 4 of a MATMUL (R61 to R64, R159, R160, R208, R210). A pair of formats that R62 does not list is refused at FMT_A, byte 47,
whichever of the two is the one at fault (DESIGN CHOICE, log entry 73). -/
def matFormat (d : Block) : Option Verdict :=
  let known := !(badFmtOf (dFmtA d) || badFmtOf (dFmtB d) || badFmtOf (dFmtOut d))
  let r := roles d
  lowest stBadFormat
    [(badFmtOf (dFmtA d), 47), (badFmtOf (dFmtB d), 48), (badFmtOf (dFmtOut d), 49),
     (known && (!pairOk r.1 r.2 || dFmtA d == 3 || (dFmtB d == 3 && dDF d != 0)), 47),
     (known && dFmtOut d == 3 && !mfOutBlk d, 49),
     (known && mfOutBlk d && !(isFp8 (dFmtOut d) || dFmtOut d == 3), 49),
     (decide (dAct d > 5), 50),
     (decide (dDF d = 3 ∨ dBias d = 3), 51),
     ((mfABlk d && !(isFp8 (dFmtA d) || dFmtA d == 3)) || (mfBBlk d && !(isFp8 (dFmtB d) || dFmtB d == 3)), 56),
     (!mfAux d && (mfABlk d || mfBBlk d || mfOutBlk d || mfScales d), 56),
     (!mfAux d && dBias d != 0, 51)]

/-- Check 4 of a MATMUL_DD (R163, R208). Bits [7:6] of bytes 47 to 49, which R208 reserves beside the codes, are not read here either, nor
in the DIGEST_FMT of an ACC_STORE (DESIGN CHOICE, log entry 73). -/
def ddFormat (d : Block) : Option Verdict :=
  lowest stBadFormat
    [(dFmtA d != 4, 47), (dFmtB d != 4, 48), (!(dFmtOut d == 7 || dFmtOut d == 9), 49), (dAct d != 0, 50),
     (decide (dDF d = 3 ∨ dBias d ≠ 0), 51)]

/-- The tiles of the group an array operation works on: its own list with START, else the open group's (R147). -/
def groupTiles (x : Context) (d : Block) : Option (List Nat) :=
  if mfStart d then some (dTiles d) else (groupAt x (dSpace d) (dGroup d)).map (fun g => g.tiles)

/-- Check 5 of an array operation (R95, R142, R147, R163, R209, R210). A double-dig command that joins a group of other than 6 tiles
fails at the byte that names the group. -/
def matShape (x : Context) (d : Block) : Option Verdict :=
  let dd := dOpcode d == 0x11
  let lim := if dd then 128 else 1024
  let nt := ((groupTiles x d).map (fun l => l.length)).getD 8
  lowest stBadShape
    [(decide (dSpace d > 127), 12),
     ((dd || mfAux d) && dAux d % 64 != 0, 34),
     (decide (dM d < 1 ∨ lim < dM d), 40), (decide (dN d < 1 ∨ lim < dN d), 42),
     (decide (nt < ceilDiv (dM d) 128 * ceilDiv (dN d) 128), 40),
     (dd && !mfStart d && (groupTiles x d).isSome && nt != 6, 51),
     (mfStart d && badTiles d, 52), (dd && mfStart d && dTileCount d != 6, 52),
     (!dd && mfBind d && (bindTarget x (dBindIdx d)).isNone, 58),
     (dd && decide (dSlices d < 3 ∨ 8 < dSlices d), 60)]

/-- Row bytes and strides of an array operation: from its extension, or dense (R210). -/
def aBytes (d : Block) : Nat := fmtBytes (dFmtA d) (dK d)
def bBytes (d : Block) : Nat := fmtBytes (dFmtB d) (dN d)
def cBytes (d : Block) : Nat := fmtBytes (dFmtOut d) (dN d)
def hasExt (d : Block) : Bool := dOpcode d == 0x11 || mfAux d
def aStride (d e : Block) : Nat := if hasExt d then fld e 32 4 else aBytes d
def bStride (d e : Block) : Nat := if hasExt d then fld e 36 4 else bBytes d
def cStride (d e : Block) : Nat := if hasExt d then fld e 40 4 else cBytes d

/-- Scale bytes per row of an operand (R82). -/
def scaleBytes (d : Block) (k : Nat) : Nat := ceilDiv k (blkSize (mfBlk32 d))

/-- The ranges a MATMUL accesses, by the byte offsets of their fields (R219, R220): operands and block scales only for K ≥ 1, the
output, its scales and the bias only with END; then the extension block's own. -/
def matRanges (d e : Block) : List (Nat × Nat × Nat) :=
  let m := dM d
  let n := dN d
  let k := decide (1 ≤ dK d)
  (if k then rowRanges pmRead (dA d) (aStride d e) (aBytes d) m ++ rowRanges pmRead (dB d) (bStride d e) (bBytes d) (dK d) else [])
  ++ (if mfEnd d then rowRanges pmWrite (dOut d) (cStride d e) (cBytes d) m else [])
  ++ (if hasExt d then [(pmRead, dAux d, 64)] else [])
  ++ (if k && mfABlk d then [(pmRead, fld e 0 6, scaleBytes d (dK d) * m)] else [])
  ++ (if k && mfBBlk d then [(pmRead, fld e 8 6, scaleBytes d (dK d) * n)] else [])
  ++ (if mfEnd d && mfOutBlk d then [(pmWrite, fld e 16 6, scaleBytes d n * m)] else [])
  ++ (if mfEnd d && dBias d != 0 then [(pmRead, fld e 24 6, 4 * (if dBias d = 1 then n else m))] else [])

/-- Plane strides of a MATMUL_DD (R210). -/
def planeA (e : Block) : Nat := fld e 16 4
def planeB (e : Block) : Nat := fld e 20 4

/-- The ranges a MATMUL_DD accesses, by the byte offsets of their fields: slice planes for K ≥ 1, the output and the exponent vectors
with END. -/
def ddRanges (d e : Block) : List (Nat × Nat × Nat) :=
  let planes (f : Nat → List (Nat × Nat × Nat)) : List (Nat × Nat × Nat) := if dK d = 0 then [] else (upto (dSlices d)).flatMap f
  planes (fun t => rowRanges pmRead (dA d + planeA e * t) (aStride d e) (dK d) (dM d))
  ++ planes (fun t => rowRanges pmRead (dB d + planeB e * t) (bStride d e) (dN d) (dK d))
  ++ (if mfEnd d then rowRanges pmWrite (dOut d) (cStride d e) (cBytes d) (dM d) else [])
  ++ [(pmRead, dAux d, 64)]
  ++ (if mfEnd d then [(pmRead, fld e 0 6, 2 * dM d), (pmRead, fld e 8 6, 2 * dN d)] else [])

/-- The kind of group an array operation needs (R140). -/
def matKind (d : Block) : GKind := if dOpcode d = 0x11 then .dd else if dFmtA d = 4 then .int32 else .fp32

/-- The accumulator outcomes of an array operation (R148). A group of another kind is refused at FMT_A, byte 47, for MATMUL_DD too: R148
names no field (DESIGN CHOICE, log entry 73). -/
def State.matGroup (s : State) (c : Nat) (x : Context) (d : Block) : Option Verdict :=
  if mfStart d then s.startCheck c x d
  else match groupAt x (dSpace d) (dGroup d) with
    | none => some (.fail stAccConflict 0)
    | some g => if g.kind = matKind d then none else some (.fail stBadFormat 47)

/-- The ranges of check 6 that the entry alone gives, before its extension is read (R219, R608): the first rows, and the extension. The
strides and the other addresses stand in the extension, so their ranges come after it. -/
def entryRanges (d : Block) : List (Nat × Nat × Nat) :=
  (if dK d = 0 then [] else [(pmRead, dA d, aBytes d), (pmRead, dB d, bBytes d)])
  ++ (if mfEnd d then [(pmWrite, dOut d, cBytes d)] else []) ++ [(pmRead, dAux d, 64)]

/-- An array operation at issue (R219): formats, shapes, regions with the extension first, a poisoned extension (R608),
the accumulator outcomes, then a core; a double-dig command then waits while shedding (R169). -/
def checkMatmul (pick : Nat) (s : State) (x : Context) (o : Op) : Verdict :=
  let d := o.desc
  let dd := dOpcode d == 0x11
  let e := if hasExt d then blockOf (s.mem.read (dAux d) 64) else 0
  let bad := s.poisonAt (dAux d) 64
  firstFail
    [if dd then ddFormat d else matFormat d,
     matShape x d,
     if hasExt d then s.regions x (entryRanges d) else none,
     if hasExt d && !bad.isEmpty then some (.poisoned 34 bad) else none,
     s.regions x (if dd then ddRanges d e else matRanges d e),
     s.matGroup o.ctx x d]
    (match s.coreFor o.ctx x (dSpace d) pick with
     | .ok k => .go { o with
                      core := some k
                      cluster := k / 16
                      phase := if dd && decide (s.pwr.shed ≥ 1) then .shedHeld else o.phase
                      ext := e
                      tiles := (groupTiles x d).getD []
                      gtiles := (groupTiles x d).getD []
                      gkind := some (matKind d)
                      taken := dGroup d + 1
                      outs := writesOf (if dd then ddRanges d e else matRanges d e) }
     | .error w => .wait w)

/-- An array leaves Idle for an operation (R112): not while supply-sag shedding is at its first stage or beyond, and not for an operation
without products (R117, R119). -/
def State.arrayStart (s : State) (o : Op) : State :=
  match o.core with
  | some k => if s.pwr.shed = 0 ∧ dK o.desc ≠ 0 then s.modCore k (fun r => { r with arrayOn := true }) else s
  | none => s

/-- Whether an array operation has its products before it. -/
def Op.arrayWork (o : Op) : Bool :=
  (dOpcode o.desc == 0x10 || dOpcode o.desc == 0x11) && decide (dK o.desc ≠ 0) && (o.phase == .running || o.phase == .restart)

/-- A core's array enters Idle when it has no operation left (R113). -/
def State.arrayStop (s : State) (k : Nat) : State :=
  if s.ops.any (fun o => o.core == some k && o.arrayWork) || s.batches.any (fun b => b.core == some k) then s
  else s.modCore k (fun r => { r with arrayOn := false })

/-- Every array with work before it leaves Idle when the shedding ends (R117). -/
def State.arraysStart (s : State) : State :=
  (upto 128).foldl (fun (t : State) k =>
    if s.ops.any (fun o => o.core == some k && o.arrayWork) || s.batches.any (fun b => b.core == some k) then
      t.modCore k (fun r => { r with arrayOn := true })
    else t) s

/-- Starting an array operation: the binding, the group opened by START and closed by END in issue order (R143, R147); a space that was
released has no binding any more once its last group closes. -/
def startMatmul (s : State) (o : Op) : State :=
  let d := o.desc
  let s := s.bindSpace o.ctx (dSpace d) (o.core.getD 0)
  let s := if mfStart d then s.modSpace o.ctx (dSpace d) (fun p =>
      { p with groups := p.groups ++ [{ id := dGroup d, kind := matKind d, tiles := o.tiles }] }) else s
  let s := if mfEnd d then s.modSpace o.ctx (dSpace d) (fun p =>
      { p with groups := p.groups.filter (fun g => g.id != dGroup d) }) else s
  ((s.startOnCore o).arrayStart o).endReleased o.ctx

def issueMatmul (s : State) (c pick : Nat) : State := s.issue c 0x10 (checkMatmul pick) startMatmul
def issueMatmulDd (s : State) (c pick : Nat) : State := s.issue c 0x11 (checkMatmul pick) startMatmul

/-- MATMUL issues (R95, R148, R208, R219). -/
def execMatmul (c : Fin 64) (pick : Fin 128) (s : State) : Done := .next (issueMatmul s c pick)
/-- MATMUL_DD issues (R163, R208, R219). -/
def execMatmulDd (c : Fin 64) (pick : Fin 128) (s : State) : Done := .next (issueMatmulDd s c pick)

/-! ### Array work -/

/-- The passes T and beats B of an operation (R101); none for K = 0 (R119). -/
def beats (df m n k : Nat) (wide : Bool) : Nat :=
  let t := if wide then 64 else 128
  if k = 0 then 0
  else if df = 0 then 128 + ceilDiv k t * ceilDiv n 128 * max m 128 + 256
  else if df = 1 then 128 + ceilDiv k t * ceilDiv m 128 * max n 128 + 256
  else ceilDiv m t * ceilDiv n 128 * max k 128 + 256

/-- Where element (i, j) of C lies: position in the group's list and place in its tile (R96). -/
def tileOf (ts : List Nat) (n i j : Nat) : Nat := unitAt 0 ts (i / 128 * ceilDiv n 128 + j / 128)

/-- The block scales of a row of an operand: exponents by block, with whether each block's byte is poisoned. -/
def scalesOf (l : Loaded) (base off n : Nat) : List (Option Int × Bool) :=
  (upto n).map (fun b => (scaleExp (fieldAt l.bytes (off + b) 1), l.hits (base + off + b) 1))

/-- One row (or column) of an operand for the array: values, scale exponent per K index, poison per K index. -/
structure Line where
  codes : List Nat
  vals : List FV
  ints : List Int
  exps : List (Option Int)
  bad  : List Bool
deriving DecidableEq, Repr

def zeroLine : Line := { codes := [], vals := [], ints := [], exps := [], bad := [] }

/-- A line from codes, with block scales of `bs` elements where it carries them. -/
def mkLine (fmt bs : Nat) (codes : List Nat) (bad : List Bool) (scales : Option (List (Option Int × Bool))) : Line :=
  let sc (k : Nat) : Option Int × Bool :=
    match scales with
    | none => (some 0, false)
    | some l => unitAt (some 0, false) l (k / bs)
  { codes := codes
    vals := codes.map (decodeElem fmt)
    ints := codes.map (signed (fmtBits fmt))
    exps := (upto codes.length).map (fun k => (sc k).1)
    bad := (bad.zipIdx).map (fun e => e.1 || (sc e.2).2) }

/-- The pairs of a row of A and a column of B. -/
def pairsOf (a b : Line) : List Pair :=
  ((a.vals.zip b.vals).zip (a.exps.zip b.exps)).map (fun e => { a := e.1.1, b := e.1.2, ea := e.2.1, eb := e.2.2 })

/-- Whether a product of a row and a column used poisoned data. -/
def lineBad (a b : Line) : Bool := (a.bad.zip b.bad).any (fun e => e.1 || e.2)

/-- The operands of an array operation as lines: rows of A, columns of B. -/
structure Operands where
  rows : List Line
  cols : List Line
  bad  : Bool
deriving DecidableEq, Repr

/-- Read a matrix as rows of codes and poison: `n` rows of `len` elements. -/
def State.loadMat (s : State) (w : Who) (cl : Nat) (cached : Bool) (fmt base stride n len : Nat) :
    List (List Nat × List Bool) × State :=
  let (ls, s) := s.loadRows w cl cached base stride (fmtBytes fmt len) n
  ((ls.zipIdx).map (fun e => (rowCodes fmt len e.1, (upto len).map (elemBad fmt (base + stride * e.2) e.1))), s)

/-- Column `j` of rows of codes. -/
def column (rows : List (List Nat × List Bool)) (j : Nat) : List Nat × List Bool :=
  (rows.map (fun r => unitAt 0 r.1 j), rows.map (fun r => unitAt false r.2 j))

/-- The operands of a MATMUL, read by its feeders with the cached class (R259, R273). -/
def State.matOperands (s : State) (o : Op) : Operands × State :=
  let d := o.desc
  let e := o.ext
  let w := o.who
  let k := dK d
  let bs := blkSize (mfBlk32 d)
  let nb := scaleBytes d k
  let (as, s) := s.loadMat w o.cluster true (dFmtA d) (dA d) (aStride d e) (dM d) k
  let (bs', s) := s.loadMat w o.cluster true (dFmtB d) (dB d) (bStride d e) k (dN d)
  let (sa, s) := if mfABlk d then s.loadDev w o.cluster true (fld e 0 6) (nb * dM d) else (noLoad, s)
  let (sb, s) := if mfBBlk d then s.loadDev w o.cluster true (fld e 8 6) (nb * dN d) else (noLoad, s)
  let rows := (as.zipIdx).map (fun r => mkLine (dFmtA d) bs r.1.1 r.1.2
    (if mfABlk d then some (scalesOf sa (fld e 0 6) (nb * r.2) nb) else none))
  let cols := (upto (dN d)).map (fun j => mkLine (dFmtB d) bs (column bs' j).1 (column bs' j).2
    (if mfBBlk d then some (scalesOf sb (fld e 8 6) (nb * j) nb) else none))
  ({ rows := rows, cols := cols
     bad := as.any (fun r => r.2.any id) || bs'.any (fun r => r.2.any id) || !sa.bad.isEmpty || !sb.bad.isEmpty }, s)

/-! ### Stationary-operand buffers (R102, R103, R255) -/

/-- What a stationary operand is like: 16-bit elements or 8-bit ones, K, the elements of a block scale. -/
structure StatShape where
  wide : Bool
  k    : Nat
  bs   : Nat
deriving DecidableEq, Repr

def statShape (d : Block) : StatShape := { wide := fmtBits (dFmtA d) == 16, k := dK d, bs := blkSize (mfBlk32 d) }

/-- K indices of a stationary tile (R97), bytes of an element in it, and the passes along K. -/
def StatShape.tileK (h : StatShape) : Nat := if h.wide then 64 else 128
def StatShape.width (h : StatShape) : Nat := if h.wide then 2 else 1
def StatShape.passes (h : StatShape) : Nat := ceilDiv h.k h.tileK

/-- The stationary operand of an operation that loads one: A in IS, B in WS (R97); OS holds C in its cells. -/
def statOf (d : Block) (p : Operands) : List Line := if dDF d = 1 then p.rows else if dDF d = 0 then p.cols else []

/-- The pass in whose tile element `k` of stationary line `l` lies, its byte in the tile, and the byte of its block scale after the tile's
16 KiB: tiles follow along K first, and lie by K index (DESIGN CHOICE, log entry 74). -/
def StatShape.place (h : StatShape) (l k : Nat) : Nat × Nat × Nat :=
  (l / 128 * h.passes + k / h.tileK, (k % h.tileK * 128 + l % 128) * h.width, 0x4000 + l % 128 * 8 + k % h.tileK / h.bs)

/-- Products that use a granule lost in a stationary-operand buffer are poisoned (R255). -/
def loseLines (h : StatShape) (lost : List (Nat × Nat)) (ls : List Line) : List Line :=
  if lost.isEmpty then ls
  else (ls.zipIdx).map (fun e => { e.1 with bad := (e.1.bad.zipIdx).map (fun b =>
    let q := h.place e.2 b.2
    b.1 || lost.contains (q.1, q.2.1 / 32) || lost.contains (q.1, q.2.2 / 32)) })

/-- A tile of stationary lines from line `l0` and K index `k0` on, by their codes, and its scales. -/
def tileAt (h : StatShape) (codes : List (List Nat)) (scales : List (List Byte)) (pass l0 k0 : Nat) : StatBuf :=
  let cs := (codes.drop l0).take 128
  { pass := pass
    bytes := (upto (min h.tileK (h.k - k0))).flatMap (fun k => cs.flatMap (fun c => bytesOf h.width (unitAt 0 c (k0 + k))))
    scales := ((scales.drop l0).take 128).flatMap (fun c => (c.drop (k0 / h.bs)).take (h.tileK / h.bs)) }

/-- The tile of a pass of a WS or IS operation (log entry 74). -/
def statTile (h : StatShape) (codes : List (List Nat)) (scales : List (List Byte)) (pass : Nat) : StatBuf :=
  let n := max 1 h.passes
  tileAt h codes scales pass (pass / n * 128) (pass % n * h.tileK)

/-- The tile of a pass of a MATMUL_DD: its slice pair, first line and first K index. Chunks of 65,536 along K come first, in each the pairs
in order, in each pair the tiles (R165; log entry 74). -/
def ddTile (d : Block) (pairs lines pass : Nat) : Nat × Nat × Nat :=
  let nt := ceilDiv lines 128
  let c := pass / max 1 (512 * nt * pairs)
  let r := pass % max 1 (512 * nt * pairs)
  let kt := max 1 (ceilDiv (min 65536 (dK d - 65536 * c)) 128)
  (r / max 1 (kt * nt), r % max 1 (kt * nt) / kt * 128, 65536 * c + r % kt * 128)

/-- Whether stationary line `l` of a MATMUL_DD has a product that uses a lost granule (R255). -/
def ddLost (d : Block) (pairs lines : Nat) (lost : List (Nat × Nat)) (l : Nat) : Bool :=
  lost.any (fun e =>
    let (_, l0, k0) := ddTile d pairs lines e.1
    decide (e.1 < pairs * (statShape d).passes * ceilDiv lines 128 ∧ e.2 < 512 ∧ l / 128 * 128 = l0 ∧ l % 128 / 32 = e.2 % 4
      ∧ k0 + e.2 / 4 < dK d))

/-- What the buffers of a core hold after an operation of `n` passes: the tiles of its last two, the even passes in the first buffer
(R102); nothing of them is lost any more. -/
def State.keepTiles (s : State) (k n : Nat) (tile : Nat → StatBuf) : State :=
  let last (par : Nat) : List Nat := ([n - 1, n - 2].filter (fun p => decide (p < n) && p % 2 == par)).take 1
  s.modCore k (fun r => { r with
    bufs := (r.bufs.zipIdx).map (fun b => match last b.2 with
      | p :: _ => tile p
      | [] => b.1)
    lost := [] })

/-- START: the marks of the group's tiles are cleared, and C's elements are zero before the first addition (R73, R119,
R141). -/
def State.startTiles (s : State) (core : Nat) (ts : List Nat) (m n : Nat) : State :=
  let s := s.setMem (ts.foldl (fun mm t => mm.clearMarks core t) s.mem)
  (upto (m * n)).foldl (fun s e => s.setTile core (tileOf ts n (e / n) (e % n)) (e / n % 128) (e % n % 128) 0 false) s

/-- The additions of a MATMUL into its tiles: each element of C by its kind (R137, R138, R141). -/
def State.addProducts (s : State) (core : Nat) (ts : List Nat) (int : Bool) (m n : Nat) (p : Operands) : Bool × State :=
  (upto (m * n)).foldl (fun (acc : Bool × State) e =>
    let i := e / n
    let j := e % n
    let a := unitAt zeroLine p.rows i
    let b := unitAt zeroLine p.cols j
    let t := tileOf ts n i j
    let old := acc.2.tileWord core t (i % 128) (j % 128)
    let (v, wrap) := if int then
        let r := dotI (signed 32 old) (a.ints.zip b.ints)
        (wrapTo 32 r.1, r.2)
      else (dotF old (pairsOf a b), false)
    (acc.1 || wrap, acc.2.setTile core t (i % 128) (j % 128) v (lineBad a b))) (false, s)

/-- Beats in which cell (0, 0) alone forms a product: one for each row, column or K index that a pass streams (R101). -/
def leastActive (df m n k : Nat) (wide : Bool) : Nat :=
  let t := if wide then 64 else 128
  if df = 0 then ceilDiv k t * ceilDiv n 128 * m
  else if df = 1 then ceilDiv k t * ceilDiv m 128 * n
  else ceilDiv m t * ceilDiv n 128 * k

/-- Count the work of `r` array operations of a shape: beats with stalls, MACs, stalls by cause (R101, R109, R538). The manual does not say in
how many beats some cell forms a product: a free value, from those of cell (0, 0) to all but the load of the first tile (log entry 67). -/
def State.countArray (s : State) (w : Who) (r df m n k : Nat) (wide : Bool) (st : Stalls) : State :=
  let b := r * beats df m n k wide
  let least := r * leastActive df m n k wide
  let most := if df < 2 then b - r * 128 else b
  let active := least + Config.readError s.free % (most + 1 - least)
  let s : State := { s with free := s.free + 1 }
  let s := s.perfAdd w 0x01 (b + st.feed + st.drain + st.stationary + st.stream)
  let s := s.perfAdd w 0x02 (r * (m * n * k))
  let s := s.perfAdd w 0x03 active
  let s := s.perfAdd w 0x04 st.feed
  let s := s.perfAdd w 0x05 st.drain
  let s := s.perfAdd w 0x06 st.stationary
  s.perfAdd w 0x07 st.stream

/-- What an operation is after its array work: the epilogue with END, else done (R152). -/
def State.arrayNext (s : State) (o : Op) : State :=
  if mfEnd o.desc then s.putOp { o with phase := .epilogue, progT := s.nowN } else s.complete o

/-- Bytes of block scales by line. -/
def scaleLines (h : StatShape) (ls : List Line) : List (List Byte) :=
  ls.map (fun l => (upto (ceilDiv h.k h.bs)).map (fun b =>
    match unitAt none l.exps (b * h.bs) with
    | some x => BitVec.ofNat 8 (x + 127).toNat
    | none => 0xFF))

/-- The stationary lines of an operation of `n` lines pass through the buffers of its core: the words they read there, what the buffers hold
after (R102, R255). `blk`: the operand carries block scales. -/
def State.passLines (s : State) (w : Who) (core : Nat) (h : StatShape) (blk : Bool) (ls : List Line) : State :=
  (s.readSram w (ls.length * h.k * h.width / 8)).keepTiles core (h.passes * ceilDiv ls.length 128)
    (statTile h (ls.map (fun l => l.codes)) (if blk then scaleLines h ls else []))

/-- The array work of a MATMUL: its operands, of which the stationary one passes through the buffers (R102, R255), and its additions. -/
def State.matmulDone (s : State) (o : Op) (st : Stalls) : State :=
  let d := o.desc
  let core := o.core.getD 0
  let int := dFmtA d == 4
  let s := if mfStart d then s.startTiles core o.tiles (dM d) (dN d) else s
  let s := s.countArray o.who 1 (dDF d) (dM d) (dN d) (dK d) (fmtBits (dFmtA d) == 16) st
  if dK d = 0 then s.arrayNext o
  else
    let (p, s) := s.matOperands o
    let lost := (s.core core).lost
    let h := statShape d
    let p := if dDF d = 1 then { p with rows := loseLines h lost p.rows }
      else if dDF d = 0 then { p with cols := loseLines h lost p.cols } else p
    let bad := p.bad || (statOf d p).any (fun l => l.bad.any id)
    let s := s.passLines o.who core h (if dDF d = 1 then mfABlk d else mfBBlk d) (statOf d p)
    let (wrap, s) := s.addProducts core o.tiles int (dM d) (dN d) p
    let o := o.flag (flagIf wrap rfAccWrap)
    s.arrayNext (if bad then (o.raise stPoison).flag rfPoison else o)

/-- The slice pairs of s slices: t + u ≤ s + 1, with their shifts (R165, R166). -/
def slicePairs (n : Nat) : List (Nat × Nat × Nat) :=
  (upto n).flatMap (fun t => (upto n).filterMap (fun u =>
    if t + u + 2 ≤ n + 1 then some (t, u, 8 * (n + 1 - (t + 1) - (u + 1))) else none))

/-- The combined value that a double-dig command adds to an element: every slice sum at its shift (R165, R166). -/
def ddSum (n : Nat) (rows cols : List Line) : Int :=
  (slicePairs n).foldl (fun v p =>
    let a := unitAt zeroLine rows p.1
    let b := unitAt zeroLine cols p.2.1
    v + (a.ints.zip b.ints).foldl (fun s q => s + q.1 * q.2) 0 * 2 ^ p.2.2) 0

/-- The slice planes of one operand, by plane: lines of rows, or of columns. -/
def State.loadPlanes (s : State) (w : Who) (cl base plane stride n len : Nat) :
    Nat → List (List (List Nat × List Bool)) × State
  | 0 => ([], s)
  | t + 1 =>
    let (ps, s) := s.loadPlanes w cl base plane stride n len t
    let (m, s) := s.loadMat w cl true 4 (base + plane * t) stride n len
    (ps ++ [m], s)

/-- START of a MATMUL_DD (R96, R119, R141, R168): the marks of its tiles are cleared, and their elements are zero: of six whole tiles
without products, else of the part of tiles 2 to 5 that C covers. -/
def State.startDd (s : State) (core : Nat) (ts : List Nat) (m n k : Nat) : State :=
  if k = 0 then s.setMem (ts.foldl (fun mm t => (mm.zeroTile core t).clearMarks core t) s.mem)
  else
    let s := s.setMem (ts.foldl (fun mm t => mm.clearMarks core t) s.mem)
    (upto (m * n)).foldl (fun s e => s.setDd core ts (e / n) (e % n) 0 false) s

/-- The stationary planes of a MATMUL_DD as codes by line: rows of A in IS, columns of B in WS, none in OS (R97). -/
def ddStat (d : Block) (ap bp : List (List (List Nat × List Bool))) : List (List (List Nat)) :=
  if dDF d = 1 then ap.map (fun p => p.map Prod.fst)
  else if dDF d = 0 then bp.map (fun p => (upto (dN d)).map (fun j => (column p j).1)) else []

/-- The array work of a MATMUL_DD: slice sums added into tiles 2 to 5; tiles 0 and 1 hold zero after it (R165, R166,
R168). -/
def State.matmulDdDone (s : State) (o : Op) (st : Stalls) : State :=
  let d := o.desc
  let e := o.ext
  let core := o.core.getD 0
  let w := o.who
  let ns := dSlices d
  let m := dM d
  let n := dN d
  let k := dK d
  let pairs := slicePairs ns
  let s := if mfStart d then s.startDd core o.tiles m n k else s
  let s := s.countArray w pairs.length (dDF d) m n k false st
  let (ap, s) := if k = 0 then ([], s) else s.loadPlanes w o.cluster (dA d) (planeA e) (aStride d e) m k ns
  let (bp, s) := if k = 0 then ([], s) else s.loadPlanes w o.cluster (dB d) (planeB e) (bStride d e) k n ns
  let rowLines (i : Nat) : List Line := ap.map (fun p => mkLine 4 16 (unitAt ([], []) p i).1 (unitAt ([], []) p i).2 none)
  let colLines (j : Nat) : List Line := bp.map (fun p => mkLine 4 16 (column p j).1 (column p j).2 none)
  let lost := (s.core core).lost
  let gone (df lines l : Nat) : Bool := dDF d == df && k != 0 && ddLost d pairs.length lines lost l
  let s := if k = 0 then s else
    let st := ddStat d ap bp
    let lines := (unitAt [] st 0).length
    let s := s.readSram w (pairs.length * lines * k / 8)
    let s := s.keepTiles core (pairs.length * (statShape d).passes * ceilDiv lines 128) (fun pass =>
      let (p, l0, k0) := ddTile d pairs.length lines pass
      let q := unitAt (0, 0, 0) pairs p
      tileAt (statShape d) (unitAt [] st (if dDF d = 1 then q.1 else q.2.1)) [] pass l0 k0)
    (upto (m * n)).foldl (fun s x =>
      let i := x / n
      let j := x % n
      let r := rowLines i
      let c := colLines j
      let bad := r.any (fun l => l.bad.any id) || c.any (fun l => l.bad.any id) || gone 1 m i || gone 0 n j
      s.setDd core o.tiles i j (s.ddValue core o.tiles i j + ddSum ns r c) (bad || s.ddBad core o.tiles i j)) s
  let s := s.setMem ((o.tiles.take 2).foldl (fun mm t => (mm.zeroTile core t).clearMarks core t) s.mem)
  let bad := ap.any (fun p => p.any (fun r => r.2.any id)) || bp.any (fun p => p.any (fun r => r.2.any id))
    || (upto m).any (gone 1 m) || (upto n).any (gone 0 n)
  s.arrayNext (if bad then (o.raise stPoison).flag rfPoison else o)

/-- The bytes of a MATMUL's row-streaming operand with its block scales: A in WS and OS, B in IS (R110). -/
def streamed (d e : Block) : List (Nat × Nat) :=
  let nb := scaleBytes d (dK d)
  (if dDF d = 1 then
    rowRanges 0 (dB d) (bStride d e) (bBytes d) (dK d) ++ (if mfBBlk d then [(0, fld e 8 6, nb * dN d)] else [])
   else
    rowRanges 0 (dA d) (aStride d e) (aBytes d) (dM d) ++ (if mfABlk d then [(0, fld e 0 6, nb * dM d)] else [])).map Prod.snd

/-- An array operation may do its work: its turn has come, its core is up (R106, R149); with products, its array has left Idle, or may (R117),
and its bound operand is delivered (R110, R119). -/
def State.arrayTurn (s : State) (o : Op) : Bool :=
  let core := s.core (o.core.getD 0)
  !s.accBlocked o && !core.resetting && !(s.cluster o.cluster).resetting
  && (dK o.desc == 0
    || ((core.arrayOn || s.pwr.shed == 0)
      && !(dOpcode o.desc == 0x10 && mfBind o.desc && !s.bindReady o (dBindIdx o.desc) (streamed o.desc o.ext))))

/-- The last output element of an array operation is written into its tile (R101, R149). -/
def execArrayOpDone (c : Fin 64) (idx : W32) (stalls : Stalls) (s : State) : Done :=
  .next (match s.running? c idx (fun o => (dOpcode o.desc == 0x10 || dOpcode o.desc == 0x11) && o.phase == .running) with
    | some o =>
      if !s.arrayTurn o then s
      else
        let s := if dOpcode o.desc = 0x10 then s.matmulDone o stalls else s.matmulDdDone o stalls
        s.poisonWatch (s.arrayStop (o.core.getD 0))
    | none => s)

/-! ### The epilogue (R157 to R161) -/

/-- An activation on an FP32 word (R159): special values as the table gives them; the functions are open within 2 ulp of the exact
one (log entry 6). -/
def activate (code w : Nat) : Nat :=
  let v := fp32.decode w
  let one := 0x3F80_0000
  let half := 0x3F00_0000
  let z (n : Bool) : Nat := fp32.sign n
  let near (x : FV) : Nat := fp32.within 2 x (Config.act32 code (BitVec.ofNat 32 w)).toNat
  match v with
  | .nan => 0x7FC0_0000
  | .inf n =>
    match code with
    | 0 => w
    | 1 => if n then 0 else w
    | 2 => if n then z true else w
    | 3 => if n then z true else w
    | 4 => if n then 0 else one
    | _ => if n then z true + one else one
  | .fin n m e =>
    if m = 0 then (if code = 4 then half else if code = 1 then 0 else z n)
    else
      match code with
      | 0 => w
      | 1 => if n then 0 else w
      | 2 => near (v.mul (normalOf n m e))
      | 3 => near (v.mul (sigmoidOf n m e))
      | 4 => near (sigmoidOf n m e)
      | _ => near (tanhOf n m e)

/-- The epilogue of one element up to its FP32 result: conversion, scale, bias, activation, each rounded (R157). -/
def epilogueElem (int : Bool) (scale bias : Option Nat) (act w : Nat) : Nat :=
  let a := if int then encodeElem 7 false (intFV (signed 32 w)) else w
  let a := match scale with
    | some sc => fp32.mulW a sc
    | none => a
  let a := match bias with
    | some b => fp32.addW a b
    | none => a
  activate act a

/-- One output row: values, which are from poisoned tile granules or biases, at an address; scales where block-scaled.
Granules with a poisoned element are written as zero and poisoned (R161, R610). -/
def State.storeRow (s : State) (w : Who) (cl fmt base : Nat) (codes : List Nat) (bad : List Bool) : State :=
  let bs := bytesOfElems fmt codes
  let gs := ((upto codes.length).filter (fun k => unitAt false bad k)).flatMap (fun k =>
    granules (base + k * fmtBits fmt / 8) ((fmtBits fmt + 7) / 8))
  let bs := (bs.zipIdx).map (fun e => if gs.contains (granule (base + e.2)) then (0 : Byte) else e.1)
  s.storeDev w cl true base bs gs

/-- The block-scale bytes of a row. Poisoned elements take part in their block's amax, and its scale is written as poisoned with them: the
manual says of a DMA what becomes of such a scale (R185) and of an epilogue nothing (DESIGN CHOICE, log entry 73). -/
def State.storeScales (s : State) (w : Who) (cl : Nat) (cached : Bool) (base bs : Nat) (scales : List Nat) (bad : List Bool) :
    State :=
  let gs := ((upto scales.length).filter (fun b => ((bad.drop (b * bs)).take bs).any id)).map (fun b => granule (base + b))
  let bytes := (scales.zipIdx).map (fun e => if gs.contains (granule (base + e.2)) then (0 : Byte) else BitVec.ofNat 8 e.1)
  s.storeDev w cl cached base bytes gs

/-- A written row as the digest sees it: its elements as written (a granule with a poisoned element holds zeros) with
their poison, and its bytes. -/
def rowTap (fmt base : Nat) (codes : List Nat) (sc : Option (Nat × List Nat)) (bad : List Bool) :
    List (FV × Bool) × List Byte :=
  let bs := bytesOfElems fmt codes
  let gs := ((upto codes.length).filter (fun k => unitAt false bad k)).flatMap (fun k =>
    granules (base + k * fmtBits fmt / 8) ((fmtBits fmt + 7) / 8))
  let hit (k : Nat) : Bool := (granules (base + k * fmtBits fmt / 8) ((fmtBits fmt + 7) / 8)).any gs.contains
  (digestRow fmt codes sc ((upto codes.length).map hit),
   (bs.zipIdx).map (fun e => if gs.contains (granule (base + e.2)) then (0 : Byte) else e.1))

/-- Add a row to the tap of a command with DIGEST set. -/
def addTap (o : Op) (t : List (FV × Bool) × List Byte) (r : List (FV × Bool) × List Byte) :
    List (FV × Bool) × List Byte :=
  if willDigest o.desc then (t.1 ++ r.1, t.2 ++ r.2) else t

/-- Write one row of FP32 results: converted, or block-scaled with its scales (R160, R161); with its tap. -/
def State.emitRow (s : State) (o : Op) (i : Nat) (vals : List Nat) (bad : List Bool) :
    (List (FV × Bool) × List Byte) × State :=
  let d := o.desc
  let f := dFmtOut d
  let base := dOut d + cStride d o.ext * i
  if mfOutBlk d then
    let bs := blkSize (mfBlk32 d)
    let (sc, cs) := scaleRow f bs (vals.map fp32.decode)
    let s := s.storeRow o.who o.cluster f base cs bad
    (rowTap f base cs (some (bs, sc)) bad,
     s.storeScales o.who o.cluster true (fld o.ext 16 6 + scaleBytes d (dN d) * i) bs sc bad)
  else
    let cs := vals.map (fun v => encodeElem f (mfSat d) (fp32.decode v))
    (rowTap f base cs none bad, s.storeRow o.who o.cluster f base cs bad)

/-- S of a command (R87, R89): the product of its per-tensor scales, where it has them. -/
def tensorScale (d e : Block) : Option Nat :=
  if mfScales d then some (fp32.mulW (fld e 44 4) (fld e 48 4)) else none

/-- The epilogue of a MATMUL over the part of the tiles that M and N cover (R152, R157 to R161). -/
def State.epilogueMat (s : State) (o : Op) : State :=
  let d := o.desc
  let core := o.core.getD 0
  let n := dN d
  let nb := if dBias d = 0 then 0 else if dBias d = 1 then n else dM d
  let (bl, s) := if nb = 0 then (noLoad, s) else s.loadDev o.who o.cluster true (fld o.ext 24 6) (4 * nb)
  let biasOf (i j : Nat) : Option Nat × Bool :=
    if nb = 0 then (none, false)
    else
      let q := if dBias d = 1 then j else i
      (some (fieldAt bl.bytes (4 * q) 4), bl.hits (fld o.ext 24 6 + 4 * q) 4)
  let cell (s : State) (i j : Nat) : Nat × Bool :=
    let t := tileOf o.tiles n i j
    let (b, bb) := biasOf i j
    (epilogueElem (dFmtA d == 4) (tensorScale d o.ext) b (dAct d) (s.tileWord core t (i % 128) (j % 128)),
     bb || s.tileBad core t (i % 128) (j % 128))
  let (bad, tap, s) := (upto (dM d)).foldl (fun (acc : Bool × (List (FV × Bool) × List Byte) × State) i =>
    let r := (upto n).map (cell acc.2.2 i)
    let (t, s) := acc.2.2.emitRow o i (r.map Prod.fst) (r.map Prod.snd)
    (acc.1 || r.any Prod.snd, addTap o acc.2.1 t, s)) (false, ([], []), s)
  let s := s.perfAdd o.who 0x09 (dM d * n)
  let o := o.withDigest (dFmtOut d) tap.1 tap.2
  s.complete (if bad then (o.raise stPoison).flag rfPoison else o)

/-- The marks of an exponent entry from a poisoned granule: every element of its row or column (R612). -/
def State.markDd (s : State) (core : Nat) (ts : List Nat) (i j : Nat) : State :=
  s.setMem ((upto 4).foldl (fun m t => m.setPoison (granule (tileAddr core (unitAt 0 ts (2 + t)) i j)) true) s.mem)

/-- The epilogue of a MATMUL_DD: W * 2^(e_i + f_n - 2P + 8(s - 1)) rounded once; an exponent entry of 0x7FFF gives
the canonical NaN (R167), one from a poisoned granule marks its row or column (R612). R88 speaks of INT32 elements converted to FP32 in
this mode, which the one rounding of R167 from the 128-bit value leaves no place for: R167 is followed (DESIGN CHOICE, log entry 73). -/
def State.epilogueDd (s : State) (o : Op) : State :=
  let d := o.desc
  let e := o.ext
  let core := o.core.getD 0
  let n := dN d
  let p := 8 * (dSlices d : Int) - 3
  let (ea, s) := s.loadDev o.who o.cluster true (fld e 0 6) (2 * dM d)
  let (eb, s) := s.loadDev o.who o.cluster true (fld e 8 6) (2 * n)
  let hit (i j : Nat) : Bool := ea.hits (fld e 0 6 + 2 * i) 2 || eb.hits (fld e 8 6 + 2 * j) 2
  let s := (upto (dM d * n)).foldl (fun s x => if hit (x / n) (x % n) then s.markDd core o.tiles (x / n) (x % n) else s) s
  let cell (s : State) (i j : Nat) : Nat × Bool × Bool :=
    let x := fieldAt ea.bytes (2 * i) 2
    let y := fieldAt eb.bytes (2 * j) 2
    let nan := x == 0x7FFF || y == 0x7FFF
    let wv := s.ddValue core o.tiles i j
    let v : FV := if nan then .nan
      else .fin (decide (wv < 0)) wv.natAbs (signed 16 x + signed 16 y - 2 * p + 8 * ((dSlices d : Int) - 1))
    (encodeElem (dFmtOut d) false v,
     s.ddBad core o.tiles i j,
     nan)
  let (bad, nan, tap, s) := (upto (dM d)).foldl
    (fun (acc : Bool × Bool × (List (FV × Bool) × List Byte) × State) i =>
      let r := (upto n).map (cell acc.2.2.2 i)
      let cs := r.map Prod.fst
      let bd := r.map (fun c => c.2.1)
      (acc.1 || bd.any id, acc.2.1 || r.any (fun c => c.2.2),
       addTap o acc.2.2.1 (rowTap (dFmtOut d) (dOut d + cStride d e * i) cs none bd),
       acc.2.2.2.storeRow o.who o.cluster (dFmtOut d) (dOut d + cStride d e * i) cs bd))
    (false, false, ([], []), s)
  let s := s.perfAdd o.who 0x09 (dM d * n)
  let o := o.withDigest (dFmtOut d) tap.1 tap.2
  let o := if nan then (o.raise stOkNan).flag rfNan else o
  s.complete (if bad then (o.raise stPoison).flag rfPoison else o)

/-- An END's epilogue completes: C is written and the tiles keep their values (R152, R157, R167). -/
def execEpilogueDone (c : Fin 64) (idx : W32) (s : State) : Done :=
  .next (match s.running? c idx (fun o => o.phase == .epilogue) with
    | some o => s.poisonWatch (if dOpcode o.desc = 0x11 then s.epilogueDd o else s.epilogueMat o)
    | none => s)

end Sys2Proof.Machine
end

