-- ==== Sys2Proof/Machine/Vector.lean ====
section
/-! DEFINITION. The vector unit (R171 to R177, R211): VEC at issue, its elementwise operations, its reductions. -/

namespace Sys2Proof.Machine

open Sys2Proof

/-! ### Fields (R211) -/

def vOp (d : Block) : Nat := fld d 16 1
def vFmtX (d : Block) : Nat := fld d 17 1
def vFmtY (d : Block) : Nat := fld d 18 1
def vFmtOut (d : Block) : Nat := fld d 19 1
def vX (d : Block) : Nat := fldBits d 20 4 20 0
def vY (d : Block) : Nat := fldBits d 24 4 20 0
def vZ (d : Block) : Nat := fldBits d 28 4 20 0
def vOut (d : Block) : Nat := fldBits d 32 4 20 0
def vCount (d : Block) : Nat := fld d 36 4
def vImm0 (d : Block) : Nat := fld d 40 8
def vImm1 (d : Block) : Nat := fld d 48 8
def vFlag (d : Block) (i : Nat) : Bool := bitOf (fld d 56 2) i
def vFp64 (d : Block) : Bool := vFlag d 0
def vSat (d : Block) : Bool := vFlag d 1
def vOutBlk (d : Block) : Bool := vFlag d 2
def vBlk32 (d : Block) : Bool := vFlag d 3
def vYImm (d : Block) : Bool := vFlag d 4
def vZImm (d : Block) : Bool := vFlag d 5
def vBind (d : Block) : Bool := vFlag d 9
def vPred (d : Block) : Nat := fldBits d 56 2 12 10
def vBindIdx (d : Block) : Nat := fld d 58 2
def vOutBs (d : Block) : Nat := fldBits d 60 4 20 0

def vReduce (d : Block) : Bool := decide (0x18 ≤ vOp d ∧ vOp d ≤ 0x1B)
def vCmp (d : Block) : Bool := vOp d == 0x0B
def vSelect (d : Block) : Bool := vOp d == 0x0A

/-- Whether an operation has a Y operand, and a Z operand (R211). -/
def vUsesY (d : Block) : Bool := [0x01, 0x02, 0x03, 0x04, 0x05, 0x06, 0x09, 0x0A, 0x0B, 0x0D].contains (vOp d)
def vUsesZ (d : Block) : Bool := [0x04, 0x09, 0x0A].contains (vOp d)
def vReadsY (d : Block) : Bool := vUsesY d && !vYImm d
def vReadsZ (d : Block) : Bool := vUsesZ d && !vZImm d

def vKnown (op : Nat) : Bool := decide ((1 ≤ op ∧ op ≤ 0x16) ∨ (0x18 ≤ op ∧ op ≤ 0x1B))

/-- Bytes of an element of Z: a mask byte for SELECT, else the compute format (R211). -/
def vZSize (d : Block) : Nat := if vSelect d then 1 else if vFp64 d then 8 else 4

/-- Bytes of the result. -/
def vOutBytes (d : Block) : Nat :=
  if vCmp d then vCount d
  else if vReduce d then (if vFp64 d then 8 else 4)
  else fmtBytes (vFmtOut d) (vCount d)

/-- The size of the core store, and whether a range leaves it (R172). -/
def leavesStore (off n : Nat) : Bool := decide (0x20_0000 < off + n)

/-- VEC at issue (R142, R171, R172, R209, R211, R219). Every format field is checked, whether or not the operation reads the operand (R61),
but the VFMT_OUT that CMP ignores; the whole byte is the code, whose upper two bits no rule gives another meaning, and the PRED codes are
checked for every operation (DESIGN CHOICE, log entry 19). -/
def checkVec (pick : Nat) (s : State) (x : Context) (o : Op) : Verdict :=
  let d := o.desc
  let n := vCount d
  let conv := !vCmp d && !vReduce d
  firstFail
    [lowest stBadFormat
       [(!vKnown (vOp d) || (vFp64 d && decide (0x13 ≤ vOp d ∧ vOp d ≤ 0x16)), 16),
        (badFmtOf (vFmtX d), 17),
        (badFmtOf (vFmtY d), 18),
        (!vCmp d && badFmtOf (vFmtOut d), 19),
        (conv && vFmtOut d == 3 && !vOutBlk d, 19),
        (!vCmp d && vOutBlk d && !(isFp8 (vFmtOut d) || vFmtOut d == 3), 19),
        (decide (vPred d > 5), 56)],
     lowest stBadShape
       [(decide (dSpace d > 127), 12),
        (decide (n < 1 ∨ 2097152 < n), 36),
        (leavesStore (vX d) (fmtBytes (vFmtX d) n), 20),
        (vReadsY d && leavesStore (vY d) (fmtBytes (vFmtY d) n), 24),
        (vReadsZ d && leavesStore (vZ d) (vZSize d * n), 28),
        (leavesStore (vOut d) (vOutBytes d), 32),
        (conv && vOutBlk d && leavesStore (vOutBs d) (ceilDiv n (blkSize (vBlk32 d))), 60),
        (vBind d && (bindTarget x (vBindIdx d)).isNone, 58)]]
    (match s.coreFor o.ctx x (dSpace d) pick with
     | .ok k => .go { o with
                      core := some k
                      cluster := k / 16
                      outs := (storeAddr k (vOut d), vOutBytes d) ::
                        (if conv && vOutBlk d then [(storeAddr k (vOutBs d), ceilDiv n (blkSize (vBlk32 d)))] else []) }
     | .error w => .wait w)

/-- Starting a command on the core of its space (R143, R171). -/
def startOnSpace (s : State) (o : Op) : State :=
  (s.bindSpace o.ctx (dSpace o.desc) (o.core.getD 0)).startOnCore o

def issueVec (s : State) (c pick : Nat) : State := s.issue c 0x18 (checkVec pick) startOnSpace

/-- VEC issues (R171, R211, R219). -/
def execVec (c : Fin 64) (pick : Fin 128) (s : State) : Done := .next (issueVec s c pick)

/-! ### Operations on words of the compute format (R173, R174) -/

/-- The canonical NaN of a compute format. -/
def FloatFmt.nanW (f : FloatFmt) : Nat := f.nan.getD 0

/-- MIN or MAX: NaN when either is; of zeros of both signs MAX gives +0 and MIN -0 (R174). -/
def FloatFmt.minmax (f : FloatFmt) (mx : Bool) (a b : Nat) : Nat :=
  let x := f.decode a
  let y := f.decode b
  if x = .nan ∨ y = .nan then f.nanW
  else
    let pickB := if x.isZero && y.isZero then (if mx then x.isNeg else y.isNeg) else if mx then x.lt y else y.lt x
    f.encode false (if pickB then y else x)

/-- A comparison by PRED; NaN gives false, but NE gives true (R174). -/
def cmpPred (p : Nat) (x y : FV) : Bool :=
  match p with
  | 0 => x.eq y
  | 1 => !x.eq y
  | 2 => x.lt y
  | 3 => x.lt y || x.eq y
  | 4 => y.lt x
  | _ => y.lt x || x.eq y

/-- The reciprocal and its root, EXP and LOG on a word: special values as R78 and R174 give them, the rest open within the error of R173:
1 ulp and 2 ulp of the exact result (log entry 6). An EXP past the overflow boundary is infinite (R174). -/
def openUnary (dbl : Bool) (op a : Nat) : Nat :=
  let f := cfmt dbl
  let w32 (g : Nat) : Nat := (Config.act32 g (BitVec.ofNat 32 a)).toNat
  let x := f.decode a
  let big (n : Bool) : Nat := f.encode false (.inf n)
  match op, f.decode a with
  | _, .nan => f.nanW
  | 0x0F, .inf n => f.sign n
  | 0x0F, .fin n m _ => if m = 0 then big n
    else f.within 1 (oneValue.div x) ((Config.recip dbl (BitVec.ofNat 64 a)).toNat % 2 ^ (if dbl then 64 else 32))
  | 0x10, .inf n => if n then f.nanW else 0
  | 0x10, .fin n m _ =>
    if m = 0 then big n else if n then f.nanW
    else f.within 1 (oneValue.div x.sqrt) ((Config.rsqrt dbl (BitVec.ofNat 64 a)).toNat % 2 ^ (if dbl then 64 else 32))
  | 0x11, .inf n => if n then 0 else big false
  | 0x11, .fin n m e => f.within 2 (expOf n m e) (if dbl then (Config.exp64 (BitVec.ofNat 64 a)).toNat else w32 0x11)
  | _, .inf n => if n then f.nanW else big false
  | _, .fin n m e =>
    if m = 0 then big true else if n then f.nanW
    else f.within 2 (fxValue (fxLn m e)) (if dbl then (Config.log64 (BitVec.ofNat 64 a)).toNat else w32 0x12)

/-- One element of an elementwise operation in the compute format (R173): X, Y, Z as words. CLAMP of X to [Y, Z] is the smaller of Z and
the larger of X and Y; with Y above Z, of which the manual gives no outcome, that is Z (DESIGN CHOICE, log entry 19). -/
def vecElem (d : Block) (a b z : Nat) : Nat :=
  let f := cfmt (vFp64 d)
  match vOp d with
  | 0x01 => f.addW a b
  | 0x02 => f.subW a b
  | 0x03 => f.mulW a b
  | 0x04 => f.fmaW a b z
  | 0x05 => f.minmax false a b
  | 0x06 => f.minmax true a b
  | 0x07 => f.encode false (f.decode a).abs
  | 0x08 => f.encode false (f.decode a).neg
  | 0x09 => f.minmax false (f.minmax true a b) z
  | 0x0A => if z = 1 then a else b
  | 0x0D => f.divW a b
  | 0x0E => f.sqrtW a
  | 0x13 => activate 2 a
  | 0x14 => activate 3 a
  | 0x15 => activate 4 a
  | 0x16 => activate 5 a
  | op => openUnary (vFp64 d) op a

/-! ### Reductions (R176) -/

/-- The first value of a lane. -/
def redFirst (f : FloatFmt) (op x : Nat) : Nat := if op = 0x19 then f.mulW x x else f.encode false (f.decode x)

/-- A further element into a lane. -/
def redNext (f : FloatFmt) (op p x : Nat) : Nat :=
  if op = 0x18 then f.addW p x else if op = 0x19 then f.fmaW x x p else f.minmax (op == 0x1A) p x

/-- Two lanes into one. -/
def redJoin (f : FloatFmt) (op a b : Nat) : Nat := if op = 0x18 ∨ op = 0x19 then f.addW a b else f.minmax (op == 0x1A) a b

/-- Join neighbours, an absent one giving way (R176). -/
def redPair (g : Nat → Nat → Nat) : List (Option Nat) → List (Option Nat)
  | a :: b :: t =>
    (match a, b with
     | some x, some y => some (g x y)
     | some x, none => some x
     | none, b => b) :: redPair g t
  | l => l

def redTree (g : Nat → Nat → Nat) : Nat → List (Option Nat) → List (Option Nat)
  | 0, l => l
  | k + 1, l => redTree g k (redPair g l)

/-- A reduction of words of the compute format: 64 lanes and 6 levels in FP32, 16 and 4 in FP64 (R176). -/
def reduce (dbl : Bool) (op : Nat) (xs : List Nat) : Nat :=
  let f := cfmt dbl
  let lanes := if dbl then 16 else 64
  let ps := (xs.zipIdx).foldl (fun (ps : List (Option Nat)) e =>
    ps.modify (e.2 % lanes) (fun p =>
      match p with
      | none => some (redFirst f op e.1)
      | some v => some (redNext f op v e.1))) (List.replicate lanes none)
  match (redTree (redJoin f op) (if dbl then 4 else 6) ps).head? with
  | some (some v) => v
  | _ => if op = 0x1A then f.encode false (.inf true) else if op = 0x1B then f.encode false (.inf false) else 0

/-! ### A vector command's work -/

/-- Beats that complete elements (the *Vector operations* table). -/
def vecBeats (d : Block) : Nat :=
  let dbl := if vOp d = 0x0C then vFmtX d == 9 || vFmtOut d == 9 else vFp64 d
  let r := if [0x0D, 0x0E].contains (vOp d) then 8
    else if [0x0F, 0x10].contains (vOp d) then 2
    else if decide (0x11 ≤ vOp d ∧ vOp d ≤ 0x16) then 4 else 1
  ceilDiv (vCount d) 64 * (if dbl then 4 * r else r)

/-- An operand from the core store: codes and poison by element. -/
def State.vecLoad (s : State) (w : Who) (core fmt off n : Nat) : (List Nat × List Bool × Bool) × State :=
  let a := storeAddr core off
  let (l, s) := s.loadHome (.cluster (core / 16) w) a (fmtBytes fmt n)
  ((rowCodes fmt n l, (upto n).map (elemBad fmt a l), !l.bad.isEmpty), s)

/-- The format code whose elements are a number of bytes wide, for words of the compute format and masks. -/
def sizeFmt (n : Nat) : Nat := if n = 8 then 9 else if n = 4 then 7 else 4

/-- Write a result to the core store: granules with a poisoned element as zero and poisoned (R229, R610); its tap. -/
def State.vecStore (s : State) (w : Who) (core fmt off : Nat) (codes : List Nat) (bad : List Bool)
    (sc : Option (Nat × List Nat)) : (List (FV × Bool) × List Byte) × State :=
  let a := storeAddr core off
  let t := rowTap fmt a codes sc bad
  let gs := ((upto codes.length).filter (fun k => unitAt false bad k)).flatMap (fun k =>
    granules (a + k * fmtBits fmt / 8) ((fmtBits fmt + 7) / 8))
  (t, s.storeHome (.cluster (core / 16) w) a t.2 gs)

/-- A vector command's work, on the core store of its core. -/
def State.vecDone (s : State) (o : Op) : State :=
  let d := o.desc
  let core := o.core.getD 0
  let n := vCount d
  let f := cfmt (vFp64 d)
  let ((xs, xb, p1), s) := s.vecLoad o.who core (vFmtX d) (vX d) n
  let ((ys, yb, p2), s) := if vReadsY d then s.vecLoad o.who core (vFmtY d) (vY d) n else (([], [], false), s)
  let ((zs, zb, p3), s) := if vReadsZ d then s.vecLoad o.who core (sizeFmt (vZSize d)) (vZ d) n else (([], [], false), s)
  let word (fmt c : Nat) : Nat := f.encode false (decodeElem fmt c)
  let a (k : Nat) : Nat := word (vFmtX d) (unitAt 0 xs k)
  let b (k : Nat) : Nat := if vYImm d then word 9 (vImm0 d) else word (vFmtY d) (unitAt 0 ys k)
  let z (k : Nat) : Nat :=
    if vSelect d then (if vZImm d then vImm1 d % 256 else unitAt 0 zs k)
    else if vZImm d then word 9 (vImm1 d) else unitAt 0 zs k
  let bad (k : Nat) : Bool := unitAt false xb k || unitAt false yb k || unitAt false zb k
  let s := s.perfAdd o.who 0x08 (vecBeats d)
  let o := if p1 || p2 || p3 then (o.raise stPoison).flag rfPoison else o
  let end_ (fmt : Nat) (r : (List (FV × Bool) × List Byte) × State) : State :=
    r.2.complete (o.withDigest fmt r.1.1 r.1.2)
  if vCmp d then
    let m := (upto n).map (fun k => bnat (cmpPred (vPred d) (f.decode (a k)) (f.decode (b k))))
    end_ 4 (s.vecStore o.who core 4 (vOut d) m ((upto n).map bad) none)
  else if vReduce d then
    let g := if vFp64 d then 9 else 7
    end_ g (s.vecStore o.who core g (vOut d) [reduce (vFp64 d) (vOp d) ((upto n).map a)] [(upto n).any bad] none)
  else
    let vals : List FV := if vOp d = 0x0C then xs.map (decodeElem (vFmtX d))
      else (upto n).map (fun k => f.decode (vecElem d (a k) (b k) (z k)))
    let bads := (upto n).map bad
    if vOutBlk d then
      let bs := blkSize (vBlk32 d)
      let (sc, cs) := scaleRow (vFmtOut d) bs vals
      let (t, s) := s.vecStore o.who core (vFmtOut d) (vOut d) cs bads (some (bs, sc))
      let s := s.storeScales o.who o.cluster false (storeAddr core (vOutBs d)) bs sc bads
      end_ (vFmtOut d) (t, s)
    else
      end_ (vFmtOut d) (s.vecStore o.who core (vFmtOut d) (vOut d) (vals.map (encodeElem (vFmtOut d) (vSat d))) bads none)

/-- A vector command's last element is written (R172 to R176). -/
def execVectorDone (c : Fin 64) (idx : W32) (s : State) : Done :=
  .next (match s.running? c idx (fun o => dOpcode o.desc == 0x18 && o.phase == .running) with
    | some o =>
      if (s.core (o.core.getD 0)).resetting || (s.cluster o.cluster).resetting then s
      else if vBind o.desc && !s.bindReady o (vBindIdx o.desc)
          [(storeAddr (o.core.getD 0) (vX o.desc), fmtBytes (vFmtX o.desc) (vCount o.desc))] then s
      else s.poisonWatch (s.vecDone o)
    | none => s)

end Sys2Proof.Machine
end

