-- ==== Sys2Proof/Machine/Dma.lean ====
section
/-! DEFINITION. The DMA engines (R181 to R193, R212 to R214, R609): DMA and SLICE at issue, host streams, remote sides
with their grants, conversion, poison, the fill pointer, and slicing for double-dig mode. -/

namespace Sys2Proof.Machine

open Sys2Proof

/-! ### DMA at issue -/

/-- The core whose DMA engine runs a command that names no space: the CSP's pick where it can, else the lowest (R27). -/
def State.engineCore (s : State) (x : Context) (pick : Nat) : Except IssueWait Nat :=
  let ok (k : Nat) : Bool := x.clusters.getLsbD (k / 16) && s.coreUp k
  if ok pick then .ok pick
  else match (upto 128).find? ok with
    | some k => .ok k
    | none => .error (.cluster (lowCluster x))

/-- The ranges on this device that a transfer accesses (R219, R220, R184). -/
def State.dmaRanges (s : State) (d : Block) (src dst : Side) : List (Nat × Nat × Nat) :=
  let here (x : Side) (w p : Nat) : List (Nat × Nat × Nat) :=
    if x.kind = 1 ∨ x.kind = 2 ∨ (x.kind = 3 ∧ !s.isRemote 3 (fld d (16 + 8 * w) 8)) then
      x.segs.map (fun q => (p, x.wrap q.1, q.2)) else []
  here src 0 pmRead ++ here dst 1 pmWrite
  ++ (if xOutBlk d then [(pmWrite, xScaleAddr d, ceilDiv dst.c0 (blkSize (xBlk32 d)) * dst.runs)] else [])

/-- The ranges of check 6 that the entry alone gives, before its shape extension is read (R219, R608): the first element of a side on this
device, the extension, the first of the block scales. -/
def State.dmaEntry (s : State) (d : Block) : List (Nat × Nat × Nat) :=
  let first (w p : Nat) : List (Nat × Nat × Nat) :=
    let kind := fldBits d (32 + w) 1 2 0
    let a := fld d (16 + 8 * w) 8
    if kind = 1 ∨ kind = 2 ∨ (kind = 3 ∧ !s.isRemote 3 a) then [(p, sideAddr kind a, fmtBytes (fld d (34 + w) 1) 1)] else []
  first 0 pmRead ++ first 1 pmWrite ++ [(pmRead, xShapeAddr d, 64)] ++ (if xOutBlk d then [(pmWrite, xScaleAddr d, 1)] else [])

/-- DMA at issue (R90, R171, R182, R184, R212 to R214, R219, R236, R608). FMT_SRC and FMT_DST are codes of a whole byte: R61 names codes
up to 0x3F, and no rule gives the two upper bits another meaning, so that a byte above is no known code (DESIGN CHOICE, log entry 73). -/
def checkDma (pick : Nat) (s : State) (x : Context) (o : Op) : Verdict :=
  let d := o.desc
  let fs := fld d 34 1
  let fd := fld d 35 1
  let e := if xShape d then blockOf (s.mem.read (xShapeAddr d) 64) else 0
  let bad := s.poisonAt (xShapeAddr d) 64
  let src := sideOf d e 0
  let dst := sideOf d e 1
  let zero (w : Nat) : List (Bool × Nat) := (upto 3).map (fun i => (xShape d && fld e (20 * w + 2 * i) 2 == 0, 64 + 20 * w + 2 * i))
  firstFail
    [lowest stBadFormat
       [(badFmtOf fs, 34), (badFmtOf fd, 35),
        (fd == 3 && fs != 3 && !xOutBlk d, 35), (xOutBlk d && !(isFp8 fd || fd == 3), 35)],
     lowest stBadShape
       [(usesSpace d && decide (dSpace d > 127), 12),
        (src.kind == 3 && !gOk (fld d 16 8), 16), (dst.kind == 3 && !gOk (fld d 24 8), 24),
        (decide (src.kind > 4), 32), (decide (dst.kind > 4), 33),
        (!xShape d && xElems d == 0, 36), (xShape d && xShapeAddr d % 64 != 0, 40),
        ((xStream d).isSome && src.kind != 4, 48),
        (!xShape d && src.leaves, 16), (!xShape d && dst.leaves, 24)],
     if xShape d then s.regions x (s.dmaEntry d) else none,
     if xShape d && !bad.isEmpty then some (.poisoned 40 bad) else none,
     lowest stBadShape
       (zero 0 ++ zero 1 ++ [(xShape d && src.elems != dst.elems, 64), (src.leaves, 16), (dst.leaves, 24)]),
     s.regions x (s.dmaRanges d src dst)]
    (match if usesSpace d then s.coreFor o.ctx x (dSpace d) pick else s.engineCore x pick with
     | .ok k => .go { o with
                      core := some k
                      cluster := k / 16
                      ext := e
                      outs := writesOf (s.dmaRanges d src dst)
                        ++ (if dst.kind = 0 then dst.segs.map (fun p => (storeAddr k (dst.wrap p.1), p.2)) else []) }
     | .error w => .wait w)

/-! ### Host sources and streams (R187 to R190) -/

/-- Source bytes that a transfer may read now: below its stream's grant, or all of them (R188). -/
def State.hostLimit (s : State) (o : Op) : Nat :=
  let n := (dmaSrc o).bytes
  match xStream o.desc, s.ctx o.ctx with
  | some k, some x => min n ((unitAt { grant := 0, prev := 0, consumed := 0 } x.streams k).grant - o.base)
  | _, _ => n

/-- Ask the host for the source bytes that a transfer may read and has not asked for; nothing while the PCIe link is
down (R190). -/
def State.askHost (s : State) (o : Op) : State :=
  let hi := s.hostLimit o
  if !s.pcie.l0 ∨ hi ≤ o.asked then s
  else
    let s := ((dmaSrc o).pieces o.asked hi).foldl (fun s p => s.emit (.hostRead (BitVec.ofNat 64 p.1) p.2)) s
    s.putOp { o with asked := hi }

/-- Whether an operation is a transfer that reads host memory and may go on. -/
def hostTransfer (o : Op) : Bool := dOpcode o.desc == 0x20 && (dmaSrc o).kind == 4 && o.phase == .running

/-- Every transfer of a context that reads the host asks for what it may read. -/
def State.askAll (s : State) (c : Nat) : State :=
  (s.ops.filter (fun o => o.ctx == c && hostTransfer o)).foldl (fun s o => s.askHost o) s

/-! ### Remote sides (R269, R270, R313) -/

/-- The lowest address of a side and the bytes up to its highest: the range that one grant covers (R270). -/
def Side.range (x : Side) : Nat × Nat :=
  let l := x.segs.map (fun p => (x.wrap p.1, p.2))
  match l with
  | [] => (x.addr, 0)
  | h :: t =>
    let lo := t.foldl (fun m p => min m p.1) h.1
    let hi := t.foldl (fun m p => max m (p.1 + p.2)) (h.1 + h.2)
    (lo, hi - lo)

/-- The chip of a side of a transfer. -/
def sideChip (o : Op) (w : Nat) : BitVec 12 := gChip (fld o.desc (16 + 8 * w) 8)

/-- The sides of a transfer on other devices: 0 the source, 1 the destination. -/
def State.remoteSides (s : State) (o : Op) : List Nat :=
  if dOpcode o.desc = 0x20 then
    [0, 1].filter (fun w => s.isRemote (fldBits o.desc (32 + w) 1 2 0) (fld o.desc (16 + 8 * w) 8))
  else []

def Op.hasGrant (o : Op) (w : Nat) : Bool := o.rgrants.any (fun g => g.write == (w == 1))

/-- Ask the home of a remote side for a grant of its whole range (R270). -/
def State.askGrant (s : State) (o : Op) (x : Context) (w : Nat) : State :=
  let side := if w = 0 then dmaSrc o else dmaDst o
  match s.route (sideChip o w) with
  | none => s.complete (o.raise stNoRoute)
  | some n =>
    let (tag, s) := s.newTag n
    let m := s.mkMsg opGrantReq (sideChip o w) x.jobId side.range.1 tag 0 0
      (bytesOf 8 side.range.2 ++ [if w = 0 then (1 : Byte) else 2])
    (s.putOp { o with phase := .grantWait n tag s.nowN, progT := s.nowN }).sendOn n m

/-- Reads outstanding on a port (R313). -/
def State.readsOn (s : State) (n : Nat) : Nat := s.ops.foldl (fun k o => k + (o.reads.filter (fun r => r.link == n)).length) 0

/-- The next request of a remote source: bytes from `asked` within one piece, at most 16,384 and 512 granules (R304,
R313). -/
def nextRead (o : Op) : Option (Nat × Nat) :=
  match (dmaSrc o).pieces o.asked (dmaSrc o).bytes with
  | [] => none
  | (a, n) :: _ => some (a, min n (16384 - a % 32))

/-- Send the remote reads that the port has room for, by fuel. -/
def State.askReadsN (s : State) (o : Op) (x : Context) : Nat → State
  | 0 => s.putOp o
  | k + 1 =>
    match nextRead o, s.route (sideChip o 0) with
    | some (a, len), some n =>
      if s.readsOn n + o.reads.length ≥ 256 + ((s.op? o.ctx o.idx).map (fun p => p.reads.length)).getD 0 then s.putOp o
      else
        let (tag, s) := s.newTag n
        let m := s.mkMsg opReadReq (sideChip o 0) x.jobId a tag len 0 []
        let r : ReadOut := { tag := tag, link := n, off := o.asked, len := len, left := len }
        let o := { o with reads := o.reads ++ [r], asked := o.asked + len }
        State.askReadsN (s.sendOn n m) o x k
    | _, _ => s.putOp o

def State.askReads (s : State) (o : Op) : State :=
  match s.ctx o.ctx with
  | some x => s.askReadsN o x 257
  | none => s

/-- Every transfer that has reads left to ask for asks for what its port has room for (R313). -/
def State.resumeReads (s : State) : State :=
  (s.ops.filter (fun o => dOpcode o.desc == 0x20 && o.phase == .running && (s.remoteSides o).contains 0
      && decide (o.asked < (dmaSrc o).bytes))).foldl (fun s o => s.askReads o) s

/-- A transfer goes on: the next grant it needs, then its reads (R270). -/
def State.goTransfer (s : State) (o : Op) : State :=
  match (s.remoteSides o).find? (fun w => !o.hasGrant w), s.ctx o.ctx with
  | some w, some x => s.askGrant o x w
  | _, _ =>
    let o := { o with phase := .running, progT := s.nowN }
    let s := s.putOp o
    if (s.remoteSides o).contains 0 then s.askReads o
    else if hostTransfer o then s.askHost o
    else s

/-- Starting a transfer: its binding, its place in its stream (R188); outside the group a remote side ends it (R270). -/
def startDma (s : State) (o : Op) : State :=
  let s := if usesSpace o.desc then s.bindSpace o.ctx (dSpace o.desc) (o.core.getD 0) else s
  let s := s.startOnCore o
  let n := (dmaSrc o).bytes
  let (o, s) : Op × State := match xStream o.desc, s.ctx o.ctx with
    | some k, some x =>
      ({ o with base := (unitAt { grant := 0, prev := 0, consumed := 0 } x.streams k).consumed },
       s.modCtx o.ctx (fun x => { x with streams := x.streams.modify k (fun t => { t with consumed := t.consumed + n }) }))
    | _, _ => (o, s)
  if (s.remoteSides o).any (fun w => !s.groupHas (sideChip o w)) then s.finish (o.raise stGroupAbsent)
  else if (s.remoteSides o).any (fun w => (s.route (sideChip o w)).isNone) then s.finish (o.raise stNoRoute)
  else s.goTransfer o

def issueDma (s : State) (c pick : Nat) : State := s.issue c 0x20 (checkDma pick) startDma

/-- DMA issues (R182, R212 to R214, R219, R270). -/
def execDma (c : Fin 64) (pick : Fin 128) (s : State) : Done := .next (issueDma s c pick)

/-! ### Elements of a transfer (R184, R185, R609) -/

/-- Elements that the first `n` bytes of a side hold whole. -/
def Side.elemsIn (x : Side) (n : Nat) : Nat :=
  if x.runBytes = 0 then 0
  else n / x.runBytes * x.c0 + min x.c0 (n % x.runBytes * 8 / max 1 (fmtBits x.fmt))

/-- Bytes of a side that its first `k` elements fill whole; a run that is complete counts its last byte (R609). -/
def Side.bytesFor (x : Side) (k : Nat) : Nat :=
  if x.c0 = 0 then 0 else k / x.c0 * x.runBytes + k % x.c0 * fmtBits x.fmt / 8

/-- The byte range of element `k` within a side, in element order. -/
def Side.elemRange (x : Side) (k : Nat) : Nat × Nat :=
  let b := k / x.c0 * x.runBytes
  (b + k % x.c0 * fmtBits x.fmt / 8, b + (k % x.c0 * fmtBits x.fmt + fmtBits x.fmt + 7) / 8)

/-- The codes of the elements in the first bytes of a side. -/
def Side.codes (x : Side) (bs : List Byte) : List Nat :=
  (chunks x.runBytes bs.length bs).flatMap (fun r => (elemsOf x.fmt r).take x.c0)

/-- Whether a byte range meets a poisoned one. -/
def meets (bad : List (Nat × Nat)) (r : Nat × Nat) : Bool := bad.any (fun b => decide (b.1 < r.2 ∧ r.1 < b.2))

/-- What a transfer makes of source codes: destination codes, and block scales by run with OUT_BLK (R90, R93, R184,
R185). -/
structure Converted where
  codes  : List Nat
  scales : List (List Nat)
deriving DecidableEq, Repr

/-- A transfer that moves its elements unchanged (R213). -/
def copies (d : Block) : Bool := fld d 34 1 == fld d 35 1 && !xOutBlk d

/-- Convert codes; the elements in `bad` count as zero under block scales (R185). -/
def convertCodes (d : Block) (dst : Side) (codes : List Nat) (bad : List Bool) : Converted :=
  let fs := fld d 34 1
  if copies d then { codes := codes, scales := [] }
  else if xOutBlk d then
    let vals := (codes.zip bad).map (fun e => if e.2 then FV.fin false 0 0 else decodeElem fs e.1)
    let rs := (chunks dst.c0 codes.length vals).map (scaleRow dst.fmt (blkSize (xBlk32 d)))
    { codes := rs.flatMap Prod.snd, scales := rs.map Prod.fst }
  else { codes := codes.map (convertElem fs dst.fmt (xSat d)), scales := [] }

/-- The bytes of destination codes in element order, run by run (R609). -/
def Side.pack (x : Side) (codes : List Nat) : List Byte :=
  (chunks x.c0 codes.length codes).flatMap (bytesOfElems x.fmt)

/-- The elements that are ready to be written: whole blocks with OUT_BLK, else every one. -/
def readyElems (d : Block) (dst : Side) (n : Nat) : Nat :=
  if xOutBlk d then n / dst.c0 * dst.c0 + n % dst.c0 / blkSize (xBlk32 d) * blkSize (xBlk32 d) else n

/-- A key for destination granules, by which they are counted (R185). -/
def granKey (x : Side) (core a : Nat) : Nat := granule (if x.kind = 0 then storeAddr core a else a)

/-- Destination granules that hold an element produced from poisoned source. -/
def badGranules (x : Side) (core : Nat) (bad : List Bool) : List Nat :=
  ((bad.zipIdx).filter (fun e => e.1)).flatMap (fun e =>
    let r := x.elemRange e.2
    (x.pieces r.1 r.2).flatMap (fun p => (granules (if x.kind = 0 then storeAddr core p.1 else p.1) p.2)))

/-- Pieces of one write message each: at most 16,384 bytes and 512 granules (R304), by fuel. -/
def cutMsgs : Nat → Nat → Nat → List (Nat × Nat)
  | 0, _, _ => []
  | k + 1, a, n =>
    if n = 0 then []
    else
      let m := min n (16384 - a % 32)
      (a, m) :: cutMsgs k (a + m) (n - m)

/-- The POISON bitmap of data at an address (the *Message header flit body* table). -/
def poisonMap (a : Nat) (bad : List Nat) : Block :=
  (upto 512).foldl (fun b g => if bad.contains (a / 32 + g) then b ||| (1#512 <<< g) else b) 0

/-- Count bytes that a transfer's engine has read (R538): DMA_BYTES_READ, and HOST_BYTES_IN where they came from the host. -/
def State.countIn (s : State) (o : Op) (n : Nat) : State :=
  let s := s.perfAdd o.who 0x0A n
  if dOpcode o.desc = 0x20 ∧ (dmaSrc o).kind = 4 then s.perfAdd o.who 0x0C n else s

/-- A write of a transfer whose grant the loss of its peer has ended, or for which no port is left, is dropped: counted at the port of the
grant, and never acknowledged (R272, R293). -/
def State.dropWrite (s : State) (o : Op) (g : HeldGrant) : State :=
  let q : Posted := { ctx := o.ctx, idx := o.idx, link := g.link, chip := g.chip, tag := 0, lost := true }
  ({ s with posted := s.posted ++ [q] }).count (blkLink g.link) 0x08 1

/-- Count bytes that a transfer's engine writes to its destination (R538): DMA_BYTES_WRITTEN, HOST_BYTES_OUT where they go to the
host, REMOTE_BYTES_OUT where remote writes carry them. -/
def State.countOut (s : State) (o : Op) (n : Nat) : State :=
  let s := s.perfAdd o.who 0x0B n
  if (dmaDst o).kind = 4 then s.perfAdd o.who 0x0D n
  else if (s.remoteSides o).contains 1 then s.perfAdd o.who 0x0E n
  else s

/-- Write a piece of a transfer's destination: locally with the class of its kind, to the host, or as remote writes
under the grant (R182, R270, R291, R311). -/
def State.putPiece (s : State) (o : Op) (x : Context) (dst : Side) (a : Nat) (bs : List Byte) (bad : List Nat) : State :=
  let s := s.countOut o bs.length
  let via := Via.cluster o.cluster o.who
  if dst.kind = 0 then s.storeHome via (storeAddr (o.core.getD 0) a) bs bad
  else if dst.kind = 1 then s.storeDev o.who o.cluster true a bs bad
  else if dst.kind = 4 then
    if (granules a bs.length).any bad.contains then
      (granules a bs.length).foldl (fun s g =>
        let lo := max a (32 * g)
        let hi := min (a + bs.length) (32 * g + 32)
        s.hostWrite (BitVec.ofNat 64 lo) ((bs.drop (lo - a)).take (hi - lo)) (bad.contains g)) s
    else s.hostWrite (BitVec.ofNat 64 a) bs false
  else if !(s.remoteSides o).contains 1 then s.storeHome via a bs bad
  else match o.rgrants.find? (fun g => g.write) with
    | none => s
    | some g =>
      (cutMsgs (bs.length + 1) a bs.length).foldl (fun s p =>
        match (if g.lost then none else s.route g.chip) with
        | none => s.dropWrite o g
        | some n =>
          let (tag, s) := s.writeTag n g.chip
          let q : Posted := { ctx := o.ctx, idx := o.idx, link := n, chip := g.chip, tag := tag, lost := false }
          let s := { s with posted := s.posted ++ [q] }
          s.sendOn n (s.mkMsg opWrite g.chip x.jobId p.1 tag g.id.toNat (poisonMap p.1 bad)
            ((bs.drop (p.1 - a)).take p.2))) s

/-- The part of a transfer that its source bytes so far allow: destination bytes in element order, poison, codes. -/
structure Made where
  bytes : List Byte
  grans : List Nat
  bad   : List Bool
  conv  : Converted
deriving DecidableEq, Repr

/-- Bytes of poisoned granules are zero, unless the transfer copies (R610). -/
def blank (x : Side) (core : Nat) (grans : List Nat) (bs : List Byte) : List Byte :=
  let keys := (x.pieces 0 bs.length).flatMap (fun p => (upto p.2).map (fun i => granKey x core (p.1 + i)))
  (bs.zip keys).map (fun e => if grans.contains e.2 then (0 : Byte) else e.1)

def makeDma (o : Op) : Made :=
  let src := dmaSrc o
  let dst := dmaDst o
  let n := readyElems o.desc dst (src.elemsIn o.bytes.length)
  let codes := (src.codes o.bytes).take n
  let bad := (upto n).map (fun k => meets o.bad (src.elemRange k))
  let conv := convertCodes o.desc dst codes bad
  let core := o.core.getD 0
  let grans := (badGranules dst core bad).eraseDups
  let bs := (dst.pack conv.codes).take (dst.bytesFor n)
  { bytes := if copies o.desc || grans.isEmpty then bs else blank dst core grans bs, grans := grans, bad := bad, conv := conv }

/-- Bytes of a conversion that were written while their granule held no element from poisoned source, and now does, become zero and poisoned
with the rest of it (R185, R610). -/
def State.blankLate (s : State) (o : Op) (x : Context) (m : Made) : State :=
  let dst := dmaDst o
  let core := o.core.getD 0
  let late := m.grans.filter (fun g => !(badGranules dst core (m.bad.take (dst.elemsIn o.wrote))).contains g)
  if copies o.desc || late.isEmpty then s
  else (dst.pieces 0 o.wrote).foldl (fun s p =>
    let a := if dst.kind = 0 then storeAddr core p.1 else p.1
    (granules a p.2).foldl (fun s g =>
      let lo := max a (32 * g)
      let hi := min (a + p.2) (32 * g + 32)
      if late.contains g then s.putPiece o x dst (p.1 + (lo - a)) (List.replicate (hi - lo) 0) [g] else s) s) s

/-- Write what has become ready, and advance the fill pointer (R186). -/
def State.fillDma (s : State) (o : Op) : Op × State :=
  match s.ctx o.ctx with
  | none => (o, s)
  | some x =>
    let dst := dmaDst o
    let m := makeDma o
    let hi := m.bytes.length
    let s := s.blankLate o x m
    let s := (piecesOf dst.segs o.wrote hi).foldl (fun (acc : Nat × State) p =>
      (acc.1 + p.2, acc.2.putPiece o x dst (dst.wrap p.1) ((m.bytes.drop acc.1).take p.2)
        m.grans)) (o.wrote, s) |>.2
    let o : Op := { o with
      wrote := max o.wrote hi
      fill := if hi = dst.bytes then hi else max o.fill (hi / 64 * 64)
      d0 := BitVec.ofNat 32 (satAt (2 ^ 32 - 1) m.grans.length)
      progT := s.nowN
      gapSaid := false }
    (if m.grans.isEmpty then o else o.flag rfPoison, s.putOp o)

/-! ### Arrivals -/

/-- Take arrivals that follow on to the bytes already in order, by fuel. -/
def mergeParts : Nat → List Byte → List (Nat × List Byte) → List Byte × List (Nat × List Byte)
  | 0, bs, ps => (bs, ps)
  | k + 1, bs, ps =>
    match ps.find? (fun p => p.1 == bs.length) with
    | some p => mergeParts k (bs ++ p.2) (ps.filter (fun q => q.1 != p.1))
    | none => (bs, ps)

/-- Bytes arrive for a place in a transfer's source; poisoned ranges are by source byte (R185). -/
def Op.arrive (o : Op) (off : Nat) (data : List Byte) (bad : List (Nat × Nat)) : Op :=
  let ps := o.parts ++ [(off, data)]
  let r := mergeParts (ps.length + 1) o.bytes ps
  { o with bytes := r.1, parts := r.2, bad := o.bad ++ bad }

/-- Whether a transfer's engine works: its core and cluster are not in reset. -/
def State.engineUp (s : State) (o : Op) : Bool :=
  !(s.core (o.core.getD 0)).resetting && !(s.cluster o.cluster).resetting

/-- Where a transfer in progress meets the window of a core that has retired since its issue (R28, R235). -/
def State.dmaHole (s : State) (o : Op) : Option Nat :=
  if dOpcode o.desc = 0x20 then (s.dmaRanges o.desc (dmaSrc o) (dmaDst o)).findSome? (fun r => s.retiredHole r.2.1 r.2.2) else none

/-- Release the grants of a transfer (R270). -/
def State.releaseGrants (s : State) (o : Op) : State :=
  match s.ctx o.ctx with
  | none => s
  | some x => o.rgrants.foldl (fun s g => s.sendMsg (s.mkMsg opGrantRelease g.chip x.jobId 0 0 g.id.toNat 0 [])) s

/-- A transfer completes with REGION_FAULT at an address; its writes before stand (R227, R229, R235). -/
def State.faultDma (s : State) (o : Op) (a : Nat) : State :=
  (s.releaseGrants o).complete ({ o with d0 := BitVec.ofNat 32 a, d1 := BitVec.ofNat 16 (a / 2 ^ 32) }.raise stRegionFault)

/-- Data returned for a read of host memory is written and advances the fill pointer (R186, R190); data with the EP bit
is poisoned (R250). -/
def execHostReadCompletion (c : Fin 64) (idx : W32) (data : List Byte) (ep : Bool) (s : State) : Done :=
  .next (match s.op? c idx with
    | some o =>
      let at_ := o.bytes.length
      if !hostTransfer o || !s.engineUp o || !s.pcie.l0 || data.isEmpty || decide (o.asked < at_ + data.length)
          || !(s.frost.phase == .running || s.frost.phase == .cutting) then s
      else
        let s := if ep then s.count blkPcie 0x02 1 else s
        let s := s.countIn o data.length
        match s.dmaHole o with
        | some a => s.faultDma o a
        | none => s.poisonWatch (s.fillDma (o.arrive at_ data (if ep then [(at_, at_ + data.length)] else []))).2
    | none => s)

/-! ### The end of a transfer -/

/-- The source of a transfer on this device, read whole: bytes and poisoned byte ranges. -/
def State.readSource (s : State) (o : Op) : Op × State :=
  let src := dmaSrc o
  let (o', s) := src.segs.foldl (fun (acc : Op × State) p =>
    let a := if src.kind = 0 then storeAddr (o.core.getD 0) (src.wrap p.1) else src.wrap p.1
    let (l, s) := acc.2.loadDev o.who o.cluster (src.kind == 1) a p.2
    let at_ := acc.1.bytes.length
    let bad := l.bad.map (fun g => (at_ + (max a (32 * g) - a), at_ + (min (a + p.2) (32 * g + 32) - a)))
    ({ acc.1 with bytes := acc.1.bytes ++ l.bytes, bad := acc.1.bad ++ bad }, s)) (o, s)
  (o', s)

/-- Whether a transfer's source is on this device. -/
def State.localSource (s : State) (o : Op) : Bool := (dmaSrc o).kind != 4 && !(s.remoteSides o).contains 0

/-- The block scales of a transfer, at BS_ADDR with the class of the destination's kind (R184). -/
def State.putScales (s : State) (o : Op) (sc : List (List Nat)) : State :=
  if xOutBlk o.desc then
    let s := s.perfAdd o.who 0x0B sc.flatten.length
    s.storeDev o.who o.cluster ((dmaDst o).kind == 1) (xScaleAddr o.desc) (sc.flatten.map (BitVec.ofNat 8)) []
  else s

/-- The digest of a transfer's destination (R544). -/
def dmaDigest (o : Op) (m : Made) : Op :=
  if !willDigest o.desc then o
  else
    let dst := dmaDst o
    let core := o.core.getD 0
    let hit (k : Nat) : Bool :=
      let r := dst.elemRange k
      (dst.pieces r.1 r.2).any (fun p => (granules (if dst.kind = 0 then storeAddr core p.1 else p.1) p.2).any m.grans.contains)
    let bs := blkSize (xBlk32 o.desc)
    let rows := chunks dst.c0 m.conv.codes.length m.conv.codes
    let es := (rows.zipIdx).flatMap (fun r => digestRow dst.fmt r.1
      (if xOutBlk o.desc then some (bs, unitAt [] m.conv.scales r.2) else none)
      ((upto r.1.length).map (fun i => hit (r.2 * dst.c0 + i))))
    o.withDigest dst.fmt es m.bytes

/-- Whether remote writes of a transfer still wait to be sent (R288). -/
def State.unsent (s : State) (o : Op) : Bool :=
  (s.links.zipIdx).any (fun e => e.1.sendQ.any (fun m => m.op == opWrite && m.src == s.group.self
    && s.posted.any (fun p => p.ctx == o.ctx && p.idx == o.idx && p.link == e.2 && p.chip == m.dst && p.tag == m.tag && !p.lost)))

/-- A transfer's writes have all reached the state of their kind: its grants are released and it completes (R270, R288). -/
def State.dmaSent (s : State) (o : Op) : State :=
  let m := makeDma o
  let s := s.releaseGrants o
  let o := { o with rgrants := [] }
  let o := if m.grans.isEmpty then o else o.flag rfPoison
  s.complete (dmaDigest o m)

/-- The whole source is there: the rest of the destination and its scales are written (R182, R184 to R186); the transfer completes once
its remote writes are sent (R288). -/
def State.dmaDone (s : State) (o : Op) : State :=
  let (o, s) := s.fillDma o
  let s := s.putScales o (makeDma o).conv.scales
  if s.unsent o then s.putOp { o with phase := .sending } else s.dmaSent o

/-! ### SLICE (R164, R191 to R193) -/

def slRows (d : Block) : Nat := fld d 48 2
def slCols (d : Block) : Nat := fld d 50 2
def slN (d : Block) : Nat := fldBits d 52 1 3 0
def slByCol (d : Block) : Bool := fldBit d 52 4
def slGiven (d : Block) : Bool := fldBit d 52 5
def slSrc (d : Block) : Nat := fld d 16 8
def slPlane (d : Block) : Nat := fld d 24 8
def slExp (d : Block) : Nat := fld d 32 8
def slPlaneStride (d : Block) : Nat := fld d 40 4
def slSrcStride (d : Block) : Nat := fld d 44 4
/-- Rows or columns that are sliced, each with one exponent. -/
def slLines (d : Block) : Nat := if slByCol d then slCols d else slRows d

/-- SLICE at issue (R191, R212, R219). -/
def checkSlice (pick : Nat) (s : State) (x : Context) (o : Op) : Verdict :=
  let d := o.desc
  let sz := slRows d * slCols d
  let ex := (slExp d, 2 * slLines d)
  let rs := rowRanges pmRead (slSrc d) (slSrcStride d) (8 * slCols d) (slRows d)
        ++ (upto (slN d)).map (fun t => (pmWrite, slPlane d + slPlaneStride d * t, sz))
        ++ (if slGiven d then [(pmRead, ex)] else []) ++ [(pmWrite, ex)]
  firstFail
    [lowest stBadShape
       [(decide (slPlaneStride d < sz), 40), (slRows d == 0, 48), (slCols d == 0, 50),
        (decide (slN d < 3 ∨ 8 < slN d), 52)],
     s.regions x rs]
    (match s.engineCore x pick with
     | .ok k => .go { o with core := some k, cluster := k / 16, outs := writesOf rs }
     | .error w => .wait w)

/-- Starting a SLICE. -/
def startSlice (s : State) (o : Op) : State := s.startOnCore o

def issueSlice (s : State) (c pick : Nat) : State := s.issue c 0x21 (checkSlice pick) startSlice

/-- SLICE issues (R191, R212, R219). -/
def execSlice (c : Fin 64) (pick : Fin 128) (s : State) : Done := .next (issueSlice s c pick)

/-- The digits of an integer in base 256 with digits -128 to 127, the lowest first; the top digit takes what is left
(R164). -/
def digits : Nat → Int → List Int
  | 0, _ => []
  | 1, n => [n]
  | k + 1, n =>
    let low := (n + 128) % 256 - 128
    low :: digits k ((n - low) / 256)

/-- The exponent of a line: the floor of log2 of the largest magnitude; 0 for zeros, none with a NaN or infinity. -/
def lineExp (vs : List FV) : Option Int :=
  if vs.any (fun v => !v.isFin) then none
  else
    let amax := vs.foldl (fun a v => if a.lt v.abs then v.abs else a) (.fin false 0 0)
    some (if amax.isZero then 0 else amax.log2)

/-- The slices of one element, the highest first (R164). -/
def slicesOf (n : Nat) (e : Int) (v : FV) : List Int :=
  match v.scale ((8 * n : Nat) - 3 - e) with
  | .fin neg m k => (digits n (nearestInt neg m k)).reverse
  | _ => List.replicate n 0

/-- One line to slice: its elements with their poison, its exponent (none: entry 0x7FFF), whether its entry is in a
poisoned granule, or becomes so. -/
structure SliceLine where
  vals  : List FV
  bad   : List Bool
  exp   : Option Int
  eBad  : Bool
  fresh : Bool
deriving DecidableEq, Repr

/-- A line under its mode (R191, R192). Elements of poisoned granules, and given entries in them, take no part in the tests: poison alone
leaves the status at OK. -/
def sliceLine (given : Option (Nat × Bool)) (vals : List FV) (bad : List Bool) : SliceLine :=
  let good := ((vals.zip bad).filter (fun e => !e.2)).map Prod.fst
  match given with
  | none => { vals := vals, bad := bad, exp := lineExp good, eBad := bad.any id, fresh := true }
  | some (_, true) => { vals := vals, bad := bad, exp := some 0, eBad := true, fresh := false }
  | some (w, false) =>
    let tooBig (e : Int) : Bool := good.any (fun v => !v.isFin || (!v.isZero && decide (e + 1 ≤ v.log2)))
    let e := signed 16 w
    let bust := w == 0x7FFF || tooBig e
    { vals := vals, bad := bad, exp := if bust then none else some e, eBad := false, fresh := bust }

/-- Write bytes with the uncached class, granules that hold a bad byte as zero and poisoned (R610). -/
def State.putBad (s : State) (v : Via) (a : Nat) (bs : List Byte) (bad : List Bool) : State :=
  let gs := ((bad.zipIdx).filter (fun e => e.1)).map (fun e => granule (a + e.2))
  s.storeHome v a ((bs.zipIdx).map (fun e => if gs.contains (granule (a + e.2)) then (0 : Byte) else e.1)) gs

/-- A SLICE's work (R164, R191, R192), with the bytes its engine moves (R538); in COMPUTE mode the source is read twice (R193). -/
def State.sliceDone (s : State) (o : Op) : State :=
  let d := o.desc
  let rows := slRows d
  let cols := slCols d
  let n := slN d
  let via := Via.cluster o.cluster o.who
  let times := if slGiven d then 1 else 2
  let s := if slGiven d then s else (s.loadMat o.who o.cluster false 9 (slSrc d) (slSrcStride d) rows cols).2
  let (m, s) := s.loadMat o.who o.cluster false 9 (slSrc d) (slSrcStride d) rows cols
  let (ge, s) := if slGiven d then s.loadHome via (slExp d) (2 * slLines d) else (noLoad, s)
  let line (k : Nat) : SliceLine :=
    let r := if slByCol d then column m k else unitAt ([], []) m k
    sliceLine (if slGiven d then
        some (fieldAt ge.bytes (2 * k) 2, (granules (slExp d + 2 * k) 2).any ge.bad.contains) else none)
      (r.1.map (decodeElem 9)) r.2
  let ls := (upto (slLines d)).map line
  let z : SliceLine := { vals := [], bad := [], exp := none, eBad := false, fresh := false }
  let cell (i j : Nat) : List Int × Bool :=
    let l := unitAt z ls (if slByCol d then j else i)
    let k := if slByCol d then i else j
    (match l.exp with
     | some e => slicesOf n e (unitAt (.fin false 0 0) l.vals k)
     | none => List.replicate n 0, l.eBad || unitAt false l.bad k)
  let cells := (upto (rows * cols)).map (fun e => cell (e / cols) (e % cols))
  let s := s.countIn o (times * 8 * rows * cols + ge.bytes.length)
  let fresh := (ls.filter (fun l => l.fresh)).length
  let s := s.perfAdd o.who 0x0B (n * rows * cols + 2 * if slGiven d then fresh else ls.length)
  let s := (upto n).foldl (fun s t =>
    s.putBad via (slPlane d + slPlaneStride d * t)
      (cells.map (fun c => BitVec.ofNat 8 (wrapTo 8 (unitAt 0 c.1 t)))) (cells.map Prod.snd)) s
  let word (l : SliceLine) : List Byte := bytesOf 2 (match l.exp with
    | some e => wrapTo 16 e
    | none => 0x7FFF)
  let s := if slGiven d then
      (ls.zipIdx).foldl (fun s e => if e.1.fresh then s.storeHome via (slExp d + 2 * e.2) (word e.1) [] else s) s
    else s.putBad via (slExp d) (ls.flatMap word) (ls.flatMap (fun l => [l.eBad, l.eBad]))
  let nan := ls.any (fun l => l.exp.isNone)
  let bad := ls.any (fun l => l.eBad || l.bad.any id)
  let o := if nan then (o.raise stOkNan).flag rfNan else o
  s.complete (if bad then o.flag rfPoison else o)

/-- A DMA or SLICE transfer writes its last byte (R186, R270): its core works, its source is all there, its grants are
held. A transfer whose last remote writes were not sent then completes once they are (R288). -/
def execDmaDone (c : Fin 64) (idx : W32) (s : State) : Done :=
  .next (match s.running? c idx (fun o => (dOpcode o.desc == 0x20 || dOpcode o.desc == 0x21)
      && (o.phase == .running || o.phase == .sending)) with
    | some o =>
      if !s.engineUp o then s
      else if dOpcode o.desc = 0x21 then s.poisonWatch (s.sliceDone o)
      else if o.phase = .sending then (if s.unsent o then s else s.dmaSent o)
      else if (s.dmaHole o).isSome then s.faultDma o ((s.dmaHole o).getD 0)
      else if s.localSource o then
        let (o, s') := s.readSource { o with bytes := [], bad := [] }
        s.poisonWatch ((s'.countIn o o.bytes.length).dmaDone o)
      else if o.bytes.length = (dmaSrc o).bytes then s.poisonWatch (s.dmaDone o)
      else s
    | none => s)

end Sys2Proof.Machine
end

