-- ==== Sys2Proof/Machine/Trug.lean ====
section
/-! DEFINITION. The Trug (R120 to R133, R207, R216): slots, requests, batches and passes. -/

namespace Sys2Proof.Machine

open Sys2Proof

/-! ### Slot descriptors (R121) -/

def tW (d : Block) : Nat := fld d 0 6
def tWBs (d : Block) : Nat := fld d 8 6
def tIn (d : Block) : Nat := fld d 16 6
def tOut (d : Block) : Nat := fld d 24 6
def tBias (d : Block) : Nat := fld d 32 6
def tLayer (d : Block) : Nat := fld d 40 2
def tOper (d : Block) : Nat := fld d 42 2
def tK (d : Block) : Nat := fld d 44 3
def tN (d : Block) : Nat := fld d 48 2
def tFmtIn (d : Block) : Nat := fldBits d 50 1 5 0
def tFmtW (d : Block) : Nat := fldBits d 51 1 5 0
def tFmtOut (d : Block) : Nat := fldBits d 52 1 5 0
def tAct (d : Block) : Nat := fld d 53 1
def tValid (d : Block) : Bool := fldBit d 54 0
def tSat (d : Block) : Bool := fldBit d 54 1
def tWBlk (d : Block) : Bool := fldBit d 54 2
def tBlk (d : Block) : Nat := blkSize (fldBit d 54 3)
def tHasBias (d : Block) : Bool := fldBit d 54 4
def tHome (d : Block) : Nat := fldBits d 55 1 2 0
def tScale (d : Block) : Nat := fld d 56 4

/-- A timeout field read under its limit of 1,000,000 ns. -/
def trugLimit (v : Nat) : Nat := if 1000000 < v then 1000000 else v

/-- The timeout of a slot's requests: its own, or CFG_TRUG_DEFAULT (R121, R128). -/
def State.trugTimeout (s : State) (d : Block) : Nat :=
  let t := fld d 60 4
  if t = 0xFFFF_FFFF then trugLimit (s.cfg 0x1_0100 % 2 ^ 20) else trugLimit t

/-- The first five parts of a batch's key, and the rest (R126). -/
def trugKey (c : Nat) (d : Block) : List Nat := [c, tHome d, tW d, tLayer d, tOper d]
def trugRest (d : Block) : List Nat :=
  [tWBs d, tBias d, tK d, tN d, tFmtIn d, tFmtW d, tFmtOut d, tAct d, fldBits d 54 1 4 0, tScale d]

/-- The slot of a context under a number, where it is assigned to it (R120). -/
def State.slotOf (s : State) (c k : Nat) : Option Slot :=
  ((s.slots.find? (fun e => e.1 == k && e.2.ctx == c))).map Prod.snd

/-- The slot number of a TRUG_SLOT_SET or a TRUG_POST. -/
def dSlot (d : Block) : Nat := fldBits d 16 2 9 0

/-- Requests of a slot that are outstanding (R123, R125): accepted and not complete, those whose completion a core holds among them
(R484). -/
def State.outstanding (s : State) (c k : Nat) : Nat :=
  ((s.openOps c).filter (fun o => dOpcode o.desc == 0x29 && dSlot o.desc == k)).length

/-! ### TRUG_SLOT_SET (R121 to R123, R207) -/

/-- The checks of a slot descriptor; offsets 64 on are in the second entry (R122, R219, R227). -/
def checkSlotSet (e : Block) (s : State) (x : Context) (o : Op) : Verdict :=
  let k := dSlot o.desc
  let v := tValid e
  let known := !(badFmtOf (tFmtIn e) || badFmtOf (tFmtW e) || badFmtOf (tFmtOut e))
  firstFail
    [lowest stBadFormat
       [(v && badFmtOf (tFmtIn e), 114), (v && badFmtOf (tFmtW e), 115), (v && badFmtOf (tFmtOut e), 116),
        (v && known && (!pairOk (tFmtW e) (tFmtIn e) || tFmtIn e == 3), 114), (v && known && tFmtOut e == 3, 116),
        (v && decide (tAct e > 5), 117), (v && tWBlk e && !(isFp8 (tFmtW e) || tFmtW e == 3), 118)],
     lowest stBadShape
       [((s.slotOf o.ctx k).isNone, 16), (v && tK e == 0, 108), (v && decide (tN e < 1 ∨ 1024 < tN e), 112),
        (v && !x.clusters.getLsbD (tHome e), 119)],
     if s.outstanding o.ctx k > 0 then some (.wait (.trugSlot k)) else none]
    (.go { o with ext := e })

/-- The slot takes its descriptor, and the command completes (R121). -/
def startSlotSet (s : State) (o : Op) : State :=
  let put (p : Nat × Slot) : Nat × Slot :=
    if p.1 = dSlot o.desc ∧ p.2.ctx = o.ctx then (p.1, { p.2 with desc := o.ext }) else p
  ({ s with slots := s.slots.map put } : State).finish o

def issueSlotSet (s : State) (c : Nat) : State :=
  match s.nextEntry c with
  | none => s
  | some (x, d) =>
    if dOpcode d ≠ 0x28 ∨ !(s.entryBad x x.sqHead).isEmpty then s
    else
      let o := s.newOp c x d
      if s.cqFree c x < o.slots then s.noteWait c .completionEntries
      else if dVer d ≠ 1 then s.settleVerdict o 1 (.fail stBadVersion 1) startSlotSet
      else if (x.sqTail - x.sqHead).toNat < 2 then s.noteWait c .secondEntry
      else
        let bad := s.entryBad x (x.sqHead + 1)
        if !bad.isEmpty then s.issuePoisoned c x bad 2
        else s.settleVerdict o 2 (checkSlotSet (s.entryAt x (x.sqHead + 1)) s x o) startSlotSet

/-- TRUG_SLOT_SET copies its second entry into the slot (R121 to R123, R207). -/
def execTrugSlotSet (c : Fin 64) (s : State) : Done := .next (issueSlotSet s c)

/-! ### TRUG_POST (R124 to R127, R216) -/

def pRows (d : Block) : Nat := fld d 18 1
def pIn (d : Block) : Nat := fld d 20 4
def pOut (d : Block) : Nat := fld d 24 4
def pScale (d : Block) : Nat := fld d 28 4

/-- Bytes of one input row and one output row of a slot. -/
def tInBytes (e : Block) : Nat := fmtBytes (tFmtIn e) (tK e)
def tOutBytes (e : Block) : Nat := fmtBytes (tFmtOut e) (tN e)
/-- Where a request's row lies (R132). -/
def inRow (e d : Block) (r : Nat) : Nat := tIn e + (pIn d + r) * tInBytes e
def outRow (e d : Block) (r : Nat) : Nat := tOut e + (pOut d + r) * tOutBytes e

/-- The ranges of a request's pass (R124). -/
def postRanges (e d : Block) : List (Nat × Nat × Nat) :=
  [(pmRead, inRow e d 0, pRows d * tInBytes e), (pmWrite, outRow e d 0, pRows d * tOutBytes e),
   (pmRead, tW e, tK e * fmtBytes (tFmtW e) (tN e))]
  ++ (if tWBlk e then [(pmRead, tWBs e, ceilDiv (tK e) (tBlk e) * tN e)] else [])
  ++ (if tHasBias e then [(pmRead, tBias e, 4 * tN e)] else [])

/-- The descriptor with the slot's ids, which the request's record carries (R132). -/
def withIds (d e : Block) : Block :=
  blockOf (patch (bytesOf 64 d.toNat) 4 (bytesOf 2 (tLayer e) ++ bytesOf 2 (tOper e)))

/-- TRUG_POST at issue: its slot, its rows, room in the slot, the home cluster, the ranges of its pass (R124, R125, R216,
R611). -/
def checkPost (s : State) (x : Context) (o : Op) : Verdict :=
  let d := o.desc
  let k := dSlot d
  let e := ((s.slotOf o.ctx k).map (fun p => p.desc)).getD 0
  firstFail
    [lowest stBadShape [(!tValid e, 16), (decide (pRows d < 1 ∨ 128 < pRows d), 18)],
     if s.outstanding o.ctx k ≥ 4 then some (.wait (.trugSlot k)) else none,
     if !s.clusterUp (tHome e) then some (.wait (.cluster (tHome e))) else none,
     s.regions x (postRanges e d)]
    (.go { o with ext := e, cluster := tHome e, desc := withIds d e, outs := writesOf (postRanges e d) })

def Batch.rows (b : Batch) : Nat := b.reqs.foldl (fun n r => n + r.rows) 0

/-- The context and descriptor of a batch's requests. -/
def Batch.key (b : Batch) : List Nat × List Nat :=
  match b.reqs with
  | [] => ([], [])
  | r :: _ => (trugKey r.ctx r.sdesc, trugRest r.sdesc)

/-- Cores of a cluster that a pass can run on: in service, no bound space, no pass (R130, R145). -/
def State.passCores (s : State) (n : Nat) : List Nat :=
  (upto 128).filter (fun k => k / 16 == n && s.coreUp k && (s.core k).bound.isNone && !s.batches.any (fun b => b.core == some k))

/-- A pass takes a core: the pick where it can, else the lowest; none waits (R130). -/
def State.passCore (s : State) (n : Nat) (pick : Option Nat) : Option Nat :=
  let free := s.passCores n
  match pick with
  | some k => if free.contains k then some k else free.head?
  | none => free.head?

/-- A pass starts on its core; the core's COMMAND set and CORE_RUN take its last request. -/
def State.startPass (s : State) (b : Batch) (core : Option Nat) : State :=
  match core, b.reqs.getLast? with
  | some k, some r =>
    match s.op? r.ctx r.idx with
    | some o => s.startOnCore { o with core := some k }
    | none => s
  | _, _ => s

/-- Issue an open batch as one pass (R128, R130): numbered, counted, given a core if one is free, whose array leaves Idle (R117). -/
def State.issueBatch (s : State) (b : Batch) (pick : Option Nat) : State :=
  let core := s.passCore b.cluster pick
  let n := s.passes + 1
  let who : Who := { core := none, cluster := some b.cluster, ctx := (b.reqs.head?).map (fun r => r.ctx), idx := 0,
                     layer := 0, oper := 0 }
  let s := (s.perfAdd who 0x14 1).perfAdd who 0x15 b.rows
  let s := s.startPass b core
  let s := match core with
    | some k => if s.pwr.shed = 0 then s.modCore k (fun r => { r with arrayOn := true }) else s
    | none => s
  { s with
    passes := n
    batches := modFirst (fun q => q == b) (fun q => { q with pass := some n, core := core }) s.batches }

/-- An accepted request joins the open batch of its key, or opens the next (R126 to R128); a batch that it fills or does
not fit issues. -/
def startPost (s : State) (o : Op) : State :=
  let e := o.ext
  let r : TrugReq := { ctx := o.ctx, idx := o.idx, slot := dSlot o.desc, sdesc := e, desc := o.desc, rows := pRows o.desc,
                       deadline := s.nowN + s.trugTimeout e }
  let key := (trugKey o.ctx e, trugRest e)
  let isOpen (b : Batch) : Bool := b.pass.isNone && !b.reqs.isEmpty
  let s := if s.batches.any (fun b => isOpen b && b.key.1 == key.1 && b.key.2 != key.2) then s.perfAdd { o.who with core := none } 0x16 1
           else s
  let fresh : Batch := { cluster := tHome e, reqs := [r], pass := none, core := none }
  let full (s : State) (b : Batch) : State := if b.rows = 128 then s.issueBatch b none else s
  match s.batches.find? (fun b => isOpen b && b.key == key) with
  | none => full { s with batches := s.batches ++ [fresh] } fresh
  | some b =>
    if b.rows + r.rows ≤ 128 then
      let b' := { b with reqs := b.reqs ++ [r] }
      full { s with batches := modFirst (fun q => q == b) (fun _ => b') s.batches } b'
    else
      let s := s.issueBatch b none
      full { s with batches := s.batches ++ [fresh] } fresh

def issuePost (s : State) (c : Nat) : State := s.issue c 0x29 checkPost startPost

/-- TRUG_POST is accepted into a batch (R124 to R127, R216). -/
def execTrugPost (c : Fin 64) (s : State) : Done := .next (issuePost s c)

/-- The earliest deadline of a batch. -/
def Batch.due (b : Batch) : Nat :=
  match b.reqs with
  | [] => 0
  | r :: t => t.foldl (fun m q => min m q.deadline) r.deadline

/-- The open batch of a cluster with the earliest deadline that has come. -/
def State.dueBatch (s : State) (n : Nat) : Option Batch :=
  (s.batches.filter (fun b => b.cluster == n && b.pass.isNone && !b.reqs.isEmpty && decide (b.due ≤ s.nowN))).foldl
    (fun best b =>
      match best with
      | none => some b
      | some a => if b.due < a.due then some b else some a) none

/-- The earliest deadline of an open batch expires (R128): the batch issues. The CSP that batches it must run; under a
Frost no deadline is judged. -/
def execTrugDeadline (cluster : Fin 8) (pick : Fin 128) (s : State) : Done :=
  .next (match s.dueBatch cluster with
    | some b => if s.clusterUp cluster && s.frost.phase == .running then s.issueBatch b (some pick.val) else s
    | none => s)

/-! ### A pass (R130 to R133) -/

/-- The stationary operand of a pass as columns, and its bias values, with what was poisoned. -/
structure Weights where
  cols    : List Line
  bias    : List Nat
  biasBad : List Bool
  bad     : Bool
deriving DecidableEq, Repr

/-- Load the stationary operand, its block scales and the bias, once per pass (R130). -/
def State.trugWeights (s : State) (w : Who) (e : Block) : Weights × State :=
  let cl := w.cluster.getD 0
  let n := tN e
  let k := tK e
  let nb := ceilDiv k (tBlk e)
  let (m, s) := s.loadMat w cl true (tFmtW e) (tW e) (fmtBytes (tFmtW e) n) k n
  let (sc, s) := if tWBlk e then s.loadDev w cl true (tWBs e) (nb * n) else (noLoad, s)
  let (b, s) := if tHasBias e then s.loadDev w cl true (tBias e) (4 * n) else (noLoad, s)
  ({ cols := (upto n).map (fun j => mkLine (tFmtW e) (tBlk e) (column m j).1 (column m j).2
       (if tWBlk e then some (scalesOf sc (tWBs e) (nb * j) nb) else none))
     bias := (upto n).map (fun j => fieldAt b.bytes (4 * j) 4)
     biasBad := (upto n).map (fun j => (granules (tBias e + 4 * j) 4).any b.bad.contains)
     bad := m.any (fun r => r.2.any id) || !sc.bad.isEmpty || !b.bad.isEmpty }, s)

/-- One output row of a pass: values before the output conversion, poison, wrap (R130, R131, R133, R157). A product with poison
marks the 8 columns of its tile granule (R141, R161), a poisoned bias its own element (R612). -/
def trugRow (e : Block) (scale : Nat) (w : Weights) (row : Line) : List (Nat × Bool × Bool) :=
  let int := tFmtIn e == 4
  let marks := w.cols.map (fun c => lineBad row c)
  (w.cols.zipIdx).map (fun c =>
    let (v, wrap) := if int then
        let r := dotI 0 (row.ints.zip c.1.ints)
        (wrapTo 32 r.1, r.2)
      else (dotF 0 (pairsOf row c.1), false)
    (epilogueElem int (some scale) (if tHasBias e then some (unitAt 0 w.bias c.2) else none) (tAct e) v,
     ((marks.drop (c.2 / 8 * 8)).take 8).any id || (tHasBias e && unitAt false w.biasBad c.2), wrap))

/-- A request's output rows are computed and written; its operation with its flags, status and digest (R132, R133). -/
def State.trugRequest (s : State) (o : Op) (r : TrugReq) (w : Weights) : Op × State :=
  let e := r.sdesc
  let scale := fp32.mulW (pScale r.desc) (tScale e)
  let f := tFmtOut e
  let (m, s) := s.loadMat o.who o.cluster true (tFmtIn e) (inRow e r.desc 0) (tInBytes e) r.rows (tK e)
  let inBad := m.any (fun q => q.2.any id)
  let (wrap, tap, s) := (m.zipIdx).foldl (fun (acc : Bool × (List (FV × Bool) × List Byte) × State) q =>
    let row := mkLine (tFmtIn e) 16 q.1.1 q.1.2 none
    let vs := trugRow e scale w row
    let base := outRow e r.desc q.2
    let cs := vs.map (fun v => encodeElem f (tSat e) (fp32.decode v.1))
    let bad := vs.map (fun v => v.2.1)
    (acc.1 || vs.any (fun v => v.2.2), addTap o acc.2.1 (rowTap f base cs none bad),
     acc.2.2.storeRow o.who o.cluster f base cs bad)) (false, ([], []), s)
  let s := s.perfAdd o.who 0x09 (r.rows * tN e)
  let o := (o.withDigest f tap.1 tap.2).flag (flagIf wrap rfAccWrap)
  (if inBad || w.bad then (o.raise stPoison).flag rfPoison else o, s)

/-- Whether requests of a batch's slots that were posted before and are in other batches are still outstanding (R125). -/
def State.passBehind (s : State) (b : Batch) : Bool :=
  b.reqs.any (fun r => (s.ops.takeWhile (fun o => !o.is r.ctx r.idx)).any (fun o =>
    o.ctx == r.ctx && dOpcode o.desc == 0x29 && dSlot o.desc == r.slot && !b.reqs.any (fun q => o.is q.ctx q.idx)))

/-- A request completes, after any earlier one of its slot (R125). -/
def State.endRequest (s : State) (o : Op) : State :=
  if s.slotHeld o then s.putOp { o with phase := .waitEarlier } else s.complete o

/-- A pass on a core: weights, then every request in order, then their completions (R132). -/
def State.runPass (s : State) (b : Batch) (core : Nat) (st : Stalls) : State :=
  match b.reqs.head? with
  | none => s
  | some h =>
    let who : Who := { core := some core, cluster := some b.cluster, ctx := some h.ctx,
                       idx := ((b.reqs.getLast?).map (fun r => r.idx)).getD 0, layer := BitVec.ofNat 16 (tLayer h.sdesc),
                       oper := BitVec.ofNat 16 (tOper h.sdesc) }
    let e := h.sdesc
    let s := s.countArray who 1 0 b.rows (tN e) (tK e) (fmtBits (tFmtIn e) == 16) st
    let (w, s) := s.trugWeights who e
    let h : StatShape := { wide := fmtBits (tFmtIn e) == 16, k := tK e, bs := tBlk e }
    let cols := loseLines h (s.core core).lost w.cols
    let w := { w with cols := cols, bad := w.bad || cols.any (fun l => l.bad.any id) }
    let s := s.passLines who core h (tWBlk e) cols
    let (os, s) := b.reqs.foldl (fun (acc : List Op × State) r =>
      match acc.2.op? r.ctx r.idx with
      | some o =>
        let (o, s) := acc.2.trugRequest { o with core := some core, cluster := b.cluster } r w
        (acc.1 ++ [o], s.putOp o)
      | none => acc) ([], s)
    os.foldl (fun s o => s.endRequest o) s

/-- A pass has written its last output row (R132), with the stalls of its array (R109). It needs its core, which it takes now when none was
free before, and an array that has left Idle, or may (R117). -/
def execTrugPassDone (e : PassEnd) (s : State) : Done :=
  .next (match s.batches.find? (fun b => b.pass == some e.pass) with
    | some b =>
      let core := if b.core.isSome then b.core else s.passCore b.cluster none
      let ready := match b.reqs.head?.bind (fun r => s.op? r.ctx r.idx) with
        | some o => s.mayFinish { o with cluster := b.cluster, core := core }
        | none => true
      (match core with
       | some k =>
         if (s.core k).resetting || (s.cluster b.cluster).resetting || !ready || s.passBehind b
             || !((s.core k).arrayOn || s.pwr.shed == 0) then s
         else
           let t := (if b.core.isSome then s else s.startPass b core).runPass b k e.stalls
           s.poisonWatch (({ t with batches := t.batches.filter (fun q => q.pass != some e.pass) } : State).arrayStop k)
       | none => s)
    | none => s)

end Sys2Proof.Machine
end

