-- ==== Sys2Proof/Machine/CollMath.lean ====
section
/-! DEFINITION. The arithmetic of collectives (R342 to R356): segments as they travel, the conversion of a contribution,
the addition of partials in each transport format, NaN records, carried sums. -/

namespace Sys2Proof.Machine

open Sys2Proof

/-- A segment's content: contributions added, its NaN record (chip 0xFFFF: none), carried sums as FP64 words, element
codes in transport format, codes and flags by block (block-scaled E4M3 only), poison by element (R341). -/
structure Seg where
  contrib : Nat
  nanChip : Nat
  nanOff  : Nat
  sum     : Nat
  sumabs  : Nat
  vals    : List Nat
  codes   : List Nat
  flags   : List Nat
  bad     : List Bool
deriving DecidableEq, Repr

def bfEsc : Nat := 1
def bfNan : Nat := 2
def bfInf : Nat := 4

/-- 464, the bound of a block's elements in units of its scale (R346, R347). -/
def unitMax : FV := .fin false 464 0

/-- The value of an E4M3 element of a block (R346, R348). -/
def blockVal (code flags v : Nat) : FV :=
  if v % 128 = 0x7F then (if flags / 4 % 2 = 1 then .inf (v == 0xFF) else .nan)
  else (decodeElem 1 v).scale ((code : Int) - 127)

/-- The value of element `i` of a segment. -/
def Seg.val (f : Nat) (p : Seg) (i : Nat) : FV :=
  if f = 1 then blockVal (unitAt 0 p.codes (i / 32)) (unitAt 0 p.flags (i / 32)) (unitAt 0 p.vals i)
  else decodeElem f (unitAt 0 p.vals i)

/-- The lowest code from `c` at which a magnitude is within the bound, at most 0xFE; by fuel. -/
def raiseCode (m : FV) : Nat → Nat → Nat
  | 0, c => c
  | k + 1, c => if c < 0xFE ∧ unitMax.lt (m.scale (127 - (c : Int))) then raiseCode m k (c + 1) else c

/-- A block formed from exact values at a starting code, with the flags of what it is formed from: its code, flags, elements (R346 to
R348). Elements in `bad` are left out and stand as +0 (R352); a flag that one of them left behind changes no other element. -/
def makeBlock (code flags : Nat) (vs : List (FV × Bool)) : Nat × Nat × List Nat :=
  let m := vs.foldl (fun a v => if !v.2 && v.1.isFin && a.lt v.1.abs then v.1.abs else a) (.fin false 0 0)
  let c := raiseCode m 255 code
  let isNan (v : FV × Bool) : Bool := !v.2 && v.1 == .nan
  let isInf (v : FV × Bool) : Bool :=
    !v.2 && (match v.1 with
      | .inf _ => true
      | .fin _ _ _ => unitMax.lt (v.1.abs.scale (127 - (c : Int)))
      | .nan => false)
  let nan := vs.any isNan
  let inf := vs.any isInf || flags / 4 % 2 == 1
  let fl := (if flags % 2 = 1 ∨ c ≠ code then bfEsc else 0) + (if nan || flags / 2 % 2 == 1 then bfNan else 0)
    + (if inf && !nan then bfInf else 0)
  (c, fl, vs.map (fun v =>
    if v.2 then 0
    else if isNan v then 0x7F
    else if isInf v then (if nan then 0x7F else if v.1.isNeg then 0xFF else 0x7F)
    else encodeElem 1 false (v.1.scale (127 - (c : Int)))))

/-- An element of FP32 or BF16 transport after an addition: FP32 addition, then the transport format (R342). -/
def xAdd (f a b : Nat) : Nat :=
  encodeElem f false (fp32.decode (fp32.addW (encodeElem 7 false (decodeElem f a)) (encodeElem 7 false (decodeElem f b))))

/-- Whether element `i` of a segment is NaN. -/
def Seg.isNan (f : Nat) (p : Seg) (i : Nat) : Bool := p.val f i == .nan && !unitAt false p.bad i

/-- A NaN record with a new one at an offset: the lower offset stands, the earlier record at equal offsets (R351). -/
def nanMerge (a b : Nat × Nat) : Nat × Nat :=
  if a.1 = 0xFFFF then b else if b.1 = 0xFFFF then a else if b.2 < a.2 then b else a

/-- What an adder did beside the sum: blocks it escalated, elements that became NaN in it (R362). -/
structure Adder where
  seg  : Seg
  esc  : Nat
  nans : Nat
deriving DecidableEq, Repr

/-- The values of a contribution in FP64 onto SUM and SUMABS, in element order (R355). -/
def carrySums (vs : List FV) (s a : Nat) : Nat × Nat :=
  vs.foldl (fun (r : Nat × Nat) v =>
    (fp64.addW r.1 (fp64.encode false v), fp64.addW r.2 (fp64.encode false v.abs))) (s, a)

/-- A member's contribution to a segment: its elements converted to transport format, with the agreed codes of its
blocks (R342, R346), its own NaNs recorded under its chip. -/
def contribute (f me : Nat) (vals : List (FV × Bool)) (agreed : List Nat) : Adder :=
  let bs := chunks 32 vals.length vals
  let blocks := (bs.zipIdx).map (fun b =>
    let a := unitAt 0 agreed b.2
    makeBlock (if a = 0xFF then 0xFE else a) 0 b.1)
  let p : Seg :=
    { contrib := 1, nanChip := 0xFFFF, nanOff := 0, sum := 0, sumabs := 0
      vals := if f = 1 then blocks.flatMap (fun b => b.2.2) else vals.map (fun v => if v.2 then 0 else encodeElem f false v.1)
      codes := if f = 1 then blocks.map (fun b => b.1) else []
      flags := if f = 1 then blocks.map (fun b => b.2.1) else []
      bad := vals.map Prod.snd }
  let idx := upto vals.length
  let new := idx.filter (p.isNan f)
  let r := match new with
    | [] => (0xFFFF, 0)
    | i :: _ => (me, i)
  let s := carrySums (idx.map (p.val f)) 0 0
  { seg := { p with nanChip := r.1, nanOff := r.2, sum := s.1, sumabs := s.2 }
    esc := (blocks.filter (fun b => b.2.1 % 2 == 1)).length
    nans := new.length }

/-- Two partials added: P on the left, Q on the right (R342, R347); elements poisoned in either stand as +0 (R352). NaNs
that the addition makes are recorded under `me`, with `first` deciding which record leads at equal offsets. -/
def addSegs (f me : Nat) (p q : Seg) : Adder :=
  let n := p.vals.length
  let idx := upto n
  let bad := idx.map (fun i => unitAt false p.bad i || unitAt false q.bad i)
  let blocks := (upto ((n + 31) / 32)).map (fun b =>
    makeBlock (max (unitAt 0 p.codes b) (unitAt 0 q.codes b)) (unitAt 0 p.flags b ||| unitAt 0 q.flags b)
      ((upto (min 32 (n - 32 * b))).map (fun i =>
        let k := 32 * b + i
        ((p.val f k).add (q.val f k), unitAt false bad k))))
  let r : Seg :=
    { contrib := p.contrib + q.contrib, nanChip := 0xFFFF, nanOff := 0
      sum := fp64.addW p.sum q.sum, sumabs := fp64.addW p.sumabs q.sumabs
      vals := if f = 1 then blocks.flatMap (fun b => b.2.2)
              else idx.map (fun i => if unitAt false bad i then 0 else xAdd f (unitAt 0 p.vals i) (unitAt 0 q.vals i))
      codes := if f = 1 then blocks.map (fun b => b.1) else []
      flags := if f = 1 then blocks.map (fun b => b.2.1) else []
      bad := bad }
  let new := idx.filter (fun i => r.isNan f i && !p.isNan f i && !q.isNan f i)
  let own := match new with
    | [] => (0xFFFF, 0)
    | i :: _ => (me, i)
  let m := nanMerge (nanMerge own (p.nanChip, p.nanOff)) (q.nanChip, q.nanOff)
  { seg := { r with nanChip := m.1, nanOff := m.2 }
    esc := (blocks.zipIdx).foldl (fun k b =>
      k + bnat (f == 1 && decide (max (unitAt 0 p.codes b.2) (unitAt 0 q.codes b.2) < b.1.1))) 0
    nans := new.length }

/-- A member adds its contribution to a partial that has arrived: SUM goes on from the partial's, element by element
(R355); the partial's own records lead. -/
def addOwn (f me : Nat) (p own : Seg) : Adder :=
  let a := addSegs f me p { own with nanChip := 0xFFFF }
  let s := carrySums ((upto own.vals.length).map (own.val f)) p.sum p.sumabs
  let ownNew := (upto own.vals.length).filter (fun i => own.isNan f i && !p.isNan f i && a.seg.isNan f i)
  let rec' := match ownNew with
    | [] => (0xFFFF, 0)
    | i :: _ => (me, i)
  let m := nanMerge (a.seg.nanChip, a.seg.nanOff) rec'
  { a with
    seg := { a.seg with sum := s.1, sumabs := s.2, nanChip := m.1, nanOff := m.2 }
    nans := a.nans + ownNew.length }

/-! ### The check by carried sums (R355, R356) -/

def rmag (num : Nat) (e : Int) : FV := .fin false num e

/-- Exponents of u and z by transport format: z of E4M3 is relative to the largest block code (R355). -/
def boundExps (f : Nat) (maxCode : Nat) : Int × Int :=
  if f = 7 then (-24, -126) else if f = 5 then (-8, -126) else (-4, (maxCode : Int) - 133)

/-- Whether a segment is one that R355 compares: no contribution held a NaN or an infinity, and none poison (R356). -/
def Seg.comparable (p : Seg) : Bool := fp64.isFinW p.sum && fp64.isFinW p.sumabs && !p.bad.any id

/-- |S_res - SUM| > 1.25 n u SUMABS + n E z, in exact arithmetic (R355). -/
def sumFails (f n : Nat) (p : Seg) : Bool :=
  let res := (carrySums ((upto p.vals.length).map (p.val f)) 0 0).1
  let (u, z) := boundExps f (p.codes.foldl max 0)
  let lhs := ((fp64.decode res).sub (fp64.decode p.sum)).abs
  let rhs := ((fp64.decode p.sumabs).mul (rmag (5 * n) (u - 2))).add (rmag (n * p.vals.length) z)
  !(fp64.isFinW res) || rhs.lt lhs

/-! ### Segments as message data (R341) -/

/-- Where an element's bytes lie in DATA: first byte and count. -/
def elemPlace (f i : Nat) : Nat × Nat :=
  if f = 7 then (48 + 4 * i, 4) else if f = 5 then (48 + 2 * i, 2) else (48 + 544 * (i / 512) + 32 + i % 512, 1)

/-- The elements of a segment as bytes; groups of 16 blocks in block-scaled E4M3, the last filled with zeros. -/
def segBytes (f : Nat) (p : Seg) : List Byte :=
  if f = 1 then
    (upto ((p.codes.length + 15) / 16)).flatMap (fun g =>
      let at16 (l : List Nat) : List Byte := padTo 16 (((l.drop (16 * g)).take 16).map (BitVec.ofNat 8))
      at16 p.codes ++ at16 p.flags ++ padTo 512 (((p.vals.drop (512 * g)).take 512).map (BitVec.ofNat 8)))
  else bytesOfElems f p.vals

/-- The POISON bitmap of a segment: a granule of DATA that holds a poisoned element (R341). -/
def segPoison (f : Nat) (bad : List Bool) : Block :=
  (bad.zipIdx).foldl (fun b e => if e.1 then b ||| (1#512 <<< ((elemPlace f e.2).1 / 32)) else b) 0

/-- A segment read from a message's DATA: `n` elements. -/
def segOf (f n : Nat) (m : Msg) : Seg :=
  let h (o k : Nat) : Nat := fieldAt m.data o k
  let nb := (n + 31) / 32
  { contrib := h 8 2, nanChip := h 10 2, nanOff := h 18 2, sum := h 24 8, sumabs := h 32 8
    vals := (upto n).map (fun i => fieldAt m.data (elemPlace f i).1 (elemPlace f i).2)
    codes := if f = 1 then (upto nb).map (fun b => h (48 + 544 * (b / 16) + b % 16) 1) else []
    flags := if f = 1 then (upto nb).map (fun b => h (48 + 544 * (b / 16) + 16 + b % 16) 1) else []
    bad := (upto n).map (fun i => m.poison.getLsbD ((elemPlace f i).1 / 32)) }

/-- A segment header (the *Segment header* table). -/
structure SegHead where
  tag   : W32
  set   : Nat
  flags : Nat
  ring  : Nat
  dir   : Nat
  off   : Nat
  elems : Nat
  crc   : Nat
deriving DecidableEq, Repr

/-- The flags of CFLAGS. -/
def cfOrdered : Nat := 1
def cfGather : Nat := 2
def cfAbort : Nat := 4
def cfMismatch : Nat := 8
def cfUnchecked : Nat := 16
def cfCheck : Nat := 32

def headBytes (h : SegHead) (p : Seg) : List Byte :=
  bytesOf 4 h.tag.toNat ++ [BitVec.ofNat 8 h.set, BitVec.ofNat 8 h.flags] ++ bytesOf 2 (h.ring + 4 * h.dir) ++ bytesOf 2 p.contrib
  ++ bytesOf 2 p.nanChip ++ bytesOf 5 h.off ++ [0] ++ bytesOf 2 p.nanOff ++ bytesOf 2 h.elems
  ++ bytesOf 2 (p.flags.filter (fun f => f % 2 == 1)).length ++ bytesOf 8 p.sum ++ bytesOf 8 p.sumabs ++ bytesOf 4 h.crc
  ++ [0, 0, 0, 0]

def headOf (m : Msg) : SegHead :=
  let h (o k : Nat) : Nat := fieldAt m.data o k
  { tag := BitVec.ofNat 32 (h 0 4), set := h 4 1, flags := h 5 1, ring := h 6 2 % 4, dir := h 6 2 / 4 % 2, off := h 12 5,
    elems := h 20 2, crc := h 40 4 }

def SegHead.has (h : SegHead) (f : Nat) : Bool := h.flags / f % 2 == 1

end Sys2Proof.Machine
end

