-- ==== Sys2Proof/Machine/Collective.lean ====
section
/-! DEFINITION. Collectives (R331 to R362): their commands at issue, the segments each member starts, adds to, owns and
writes, the checks, and every way a collective ends. How a reduction is cut into segments around its sampled blocks, and
the way an Ordered partial goes round a ring, are DESIGN CHOICES (log entry 20). -/

namespace Sys2Proof.Machine

open Sys2Proof

/-! ### Fields (R217) -/

def kSrc (d : Block) : Nat := fld d 16 8
def kDst (d : Block) : Nat := fld d 24 8
def kCount (d : Block) : Nat := fld d 32 5
def kMem (d : Block) : Nat := fld d 40 1
def kXport (d : Block) : Nat := fld d 41 1
def kSet (d : Block) : Nat := fld d 42 1
def kOrdered (d : Block) : Bool := fldBit d 43 0
def kRoot (d : Block) : Nat := fldBits d 44 2 11 0
def kLog2 (d : Block) : Nat := fldBits d 46 1 4 0
def kTimeout (d : Block) : Nat := if fld d 48 4 = 0 then 50000000 else fld d 48 4
def kTag (d : Block) : W32 := BitVec.ofNat 32 (fld d 52 4)
def kScale (d : Block) : Nat := fld d 56 8

/-- ALL_REDUCE and REDUCE_SCATTER. -/
def kReduce (d : Block) : Bool := dOpcode d == 0x30 || dOpcode d == 0x31
def kScaled (d : Block) : Bool := kReduce d && kXport d == 1

/-- PARAM_CRC (R341): the fields as descriptor bytes, reserved bits as 0. -/
def paramCrc (d : Block) : Nat :=
  crc32c ([BitVec.ofNat 8 (dOpcode d)] ++ bytesOf 8 (kCount d) ++ [BitVec.ofNat 8 (kMem d), BitVec.ofNat 8 (kXport d),
    BitVec.ofNat 8 (bnat (kOrdered d))] ++ bytesOf 2 (if dOpcode d = 0x33 then kRoot d else 0))

def State.collSet (s : State) (id : Nat) : Option CollSet := s.sets.find? (fun e => e.id == id)

/-- The rank of a chip in a set (R331). -/
def CollSet.rank (e : CollSet) (chip : BitVec 12) : Nat := e.members.idxOf chip

def CollSet.n (e : CollSet) : Nat := e.members.length

/-- The distance clockwise from one member to another on a ring. -/
def Ring.dist (r : Ring) (a b : BitVec 12) : Nat :=
  (r.order.idxOf b + r.order.length - r.order.idxOf a) % max 1 r.order.length

def noRing : Ring := { cw := 0, ccw := 0, order := [] }

/-- Members of the first and the second arc of n (R343). -/
def arc1 (n : Nat) : Nat := n / 2
def arc2 (n : Nat) : Nat := (n - 1) / 2

/-! ### Segments (R334, R340, R353) -/

/-- A segment of a plan: its index, its owner's rank, whether it carries sampled blocks; for a reduction its blocks, for
ALL_GATHER and BROADCAST the bytes of the source's piece. -/
structure SegPlan where
  index  : Nat
  owner  : Nat
  check  : Bool
  blocks : List Nat
  off    : Nat
  len    : Nat
deriving DecidableEq, Repr

/-- Blocks of a full segment (R340). -/
def fullBlocks (f : Nat) : Nat := if f = 7 then 127 else if f = 5 then 255 else 480

def kBlocks (d : Block) : Nat := ceilDiv (kCount d) 32

/-- The first block of a share (R334). -/
def shareStart (d : Block) (n k : Nat) : Nat := k * kBlocks d / n

/-- Whether a block is sampled (R353). -/
def sampled (d : Block) (j : Nat) : Bool := (j + (kTag d).toNat) % 2 ^ (if kLog2 d = 0 then 8 else kLog2 d) == 0

/-- The segments of a reduction: share by share, first the blocks that are not sampled, then the sampled ones in check
segments. -/
def reducePlan (d : Block) (n : Nat) : List SegPlan :=
  let per := fullBlocks (kXport d)
  let pieces := (upto n).flatMap (fun k =>
    let bl := (upto (shareStart d n (k + 1) - shareStart d n k)).map (fun i => shareStart d n k + i)
    let cut (c : Bool) : List (Nat × Bool × List Nat) :=
      (chunks per bl.length (bl.filter (fun j => sampled d j == c))).map (fun b => (k, c, b))
    cut false ++ cut true)
  (pieces.zipIdx).map (fun e =>
    { index := e.2, owner := e.1.1, check := e.1.2.1, blocks := e.1.2.2, off := 0, len := 0 })

/-- Bytes of one member's piece of an ALL_GATHER or BROADCAST. -/
def pieceBytes (d : Block) : Nat := fmtBytes (kMem d) (kCount d)

/-- The segments of an ALL_GATHER or BROADCAST: whole 32-element blocks, as many as a message holds. -/
def gatherPlan (d : Block) (n root : Nat) : List SegPlan :=
  let blk := 4 * fmtBits (kMem d)
  let per := 16336 / max 1 blk * blk
  let ranks := if dOpcode d = 0x33 then [root] else upto n
  let pieces := ranks.flatMap (fun k =>
    (upto (ceilDiv (pieceBytes d) (max 1 per))).map (fun i => (k, per * i, min per (pieceBytes d - per * i))))
  (pieces.zipIdx).map (fun e => { index := e.2, owner := e.1.1, check := false, blocks := [], off := e.1.2.1, len := e.1.2.2 })

def collPlan (d : Block) (e : CollSet) : List SegPlan :=
  if kReduce d then reducePlan d e.n else gatherPlan d e.n (e.rank (BitVec.ofNat 12 (kRoot d)))

def SegPlan.elems (p : SegPlan) : Nat := 32 * p.blocks.length

/-- The ring of a segment's main path, and of its check path (R333, R353). -/
def segRing (e : CollSet) (p : SegPlan) (chk : Bool) : Nat := (p.index + bnat chk) % max 1 e.rings.length
def CollSet.ring (e : CollSet) (r : Nat) : Ring := unitAt noRing e.rings r

/-- Whether a set has an independent route for its segments (R333, R355). -/
def CollSet.independent (e : CollSet) : Bool := decide (1 < e.rings.length)

/-- Whether a segment is reduced in Ordered mode. -/
def ordered (d : Block) (p : SegPlan) : Bool := kOrdered d || p.check

/-- Whether every link of a segment's check ring at this device is UP (R355). -/
def State.checkUp (s : State) (e : CollSet) (p : SegPlan) : Bool :=
  let r := e.ring (segRing e p true)
  [r.cw, r.ccw].all (fun n => (s.link n).state == .up)

/-- What a member of a rank has to do for a segment (`Coll.left`). -/
def duties (d : Block) (e : CollSet) (rank : Nat) (p : SegPlan) : List (Nat × Nat) :=
  if kReduce d then
    (if ordered d p || p.owner != rank then [(0, p.index)] else [])
    ++ (if p.check && e.independent then [(1, p.index)] else [])
    ++ (if dOpcode d == 0x30 || p.owner == rank then [(2, p.index)] else [])
  else [(2, p.index)]

/-! ### Reading and writing memory -/

/-- Elements of a contribution: the blocks of a segment from SRC, padding +0, each with its poison (R334, R335, R352). -/
def State.readBlocks (s : State) (d : Block) (p : SegPlan) : List (FV × Bool) × State :=
  let f := kMem d
  let sz := fmtBits f / 8
  p.blocks.foldl (fun (acc : List (FV × Bool) × State) j =>
    let k := min 32 (kCount d - 32 * j)
    let a := kSrc d + 32 * j * sz
    let (l, s) := acc.2.loadHome .fabric a (k * sz)
    let vs := (upto 32).map (fun i =>
      if i < k then (decodeElem f (fieldAt l.bytes (i * sz) sz), (granules (a + i * sz) sz).any l.bad.contains)
      else (FV.fin false 0 0, false))
    (acc.1 ++ vs, s)) ([], s)

/-- The agreed codes of a segment's blocks (R346), with their poison. -/
def State.agreedCodes (s : State) (d : Block) (p : SegPlan) : List (Nat × Bool) × State :=
  if kScaled d then
    p.blocks.foldl (fun (acc : List (Nat × Bool) × State) j =>
      let (l, s) := acc.2.loadHome .fabric (kScale d + j) 1
      (acc.1 ++ [(fieldAt l.bytes 0 1, !l.bad.isEmpty)], s)) ([], s)
  else ([], s)

/-- This member's contribution to a segment. Every element of a block whose agreed code is poisoned is poisoned (R249), and the block stands
at the lowest code, so that it moves no other (R352; log entry 20). -/
def State.ownSeg (s : State) (d : Block) (p : SegPlan) : Adder × State :=
  let (vs, s) := s.readBlocks d p
  let (cs, s) := s.agreedCodes d p
  let vs := (vs.zipIdx).map (fun e => (e.1.1, e.1.2 || (unitAt (0, false) cs (e.2 / 32)).2))
  (contribute (kXport d) s.group.self.toNat vs (cs.map (fun c => if c.2 then 0 else c.1)), s)

/-- A member has read a contribution: poison in it shows in its record (R226, R352). -/
def Coll.read (c : Coll) (p : Seg) : Coll := { c with poison := c.poison || p.bad.any id }

/-- The new agreed code of a result block, where it holds a finite element that is not zero (R350). -/
def newCode (f : Nat) (p : Seg) (b : Nat) : Option Nat :=
  let m := (upto 32).foldl (fun (a : FV) i =>
    let v := (p.val f (32 * b + i)).abs
    if v.isFin && a.lt v then v else a) (.fin false 0 0)
  if m.isZero then none
  else
    let c : Int := m.log2 - 8 + 127 + 2
    some (if c < 0 then 0 else if 0xFE < c then 0xFE else c.toNat)

/-- Write a result segment to DST: converted to FMT_MEM, padding left out, poisoned granules as zero (R334, R342, R352). -/
def State.writeBlocks (s : State) (d : Block) (first : Nat) (p : SegPlan) (r : Seg) : State :=
  let f := kMem d
  let sz := fmtBits f / 8
  (p.blocks.zipIdx).foldl (fun s j =>
    let k := min 32 (kCount d - 32 * j.1)
    let a := kDst d + 32 * (j.1 - first) * sz
    let cs := (upto k).map (fun i => encodeElem f false (r.val (kXport d) (32 * j.2 + i)))
    s.putBad .fabric a (bytesOfElems f cs) ((upto k).flatMap (fun i => List.replicate sz (unitAt false r.bad (32 * j.2 + i))))) s

/-! ### Sending -/

/-- CFLAGS that every segment of a plan carries. -/
def planFlags (d : Block) (p : SegPlan) : Nat := (if ordered d p && kReduce d then cfOrdered else 0) + (if p.check then cfCheck else 0)

/-- Send a segment on a ring of the set, in a direction (0 clockwise), on the main or the check path (R340, R341). -/
def State.sendSeg (s : State) (c : Coll) (d : Block) (e : CollSet) (p : SegPlan) (chk : Bool) (dir flags : Nat) (r : Seg)
    (body : List Byte) (poison : Block) : State :=
  let ri := segRing e p chk
  let ring := e.ring ri
  let port := if dir = 0 then ring.cw else ring.ccw
  let at_ := ring.order.idxOf s.group.self
  let len := max 1 ring.order.length
  let to_ := unitAt 0 ring.order (if dir = 0 then (at_ + 1) % len else (at_ + len - 1) % len)
  let at0 := p.off * 8 / max 1 (fmtBits (kMem d))
  let off := if kReduce d then 32 * (p.blocks.headD 0) else (if dOpcode d = 0x32 then p.owner * kCount d else 0) + at0
  let elems := if kReduce d then p.elems else min (p.len * 8 / max 1 (fmtBits (kMem d))) (kCount d - at0)
  let h : SegHead := { tag := c.tag, set := c.setId, flags := flags + planFlags d p, ring := ri, dir := dir, off := off,
                       elems := elems, crc := paramCrc d }
  let job := ((s.ctx c.ctx).map (fun x => x.jobId)).getD 0
  s.sendOn port (s.mkMsg (if chk then opCollCheck else opColl) to_ job 0 0 p.index poison (headBytes h r ++ body))

/-- Send a segment of a reduction. -/
def State.sendPartial (s : State) (c : Coll) (d : Block) (e : CollSet) (p : SegPlan) (chk : Bool) (dir flags : Nat) (r : Seg) : State :=
  s.sendSeg c d e p chk dir flags r (segBytes (kXport d) r) (segPoison (kXport d) r.bad)

/-- The header of bytes that are carried unchanged. -/
def plainSeg : Seg :=
  { contrib := 1, nanChip := 0xFFFF, nanOff := 0, sum := 0, sumabs := 0, vals := [], codes := [], flags := [], bad := [] }

/-- Whether a result goes on from a member at a distance from its source in a direction: clockwise over the second arc,
counter-clockwise over the first. -/
def goesOn (n dir dist : Nat) : Bool := if dir = 0 then decide (dist < arc2 n) else decide (dist < arc1 n)

/-- A port's collective counters: blocks escalated and elements that became NaN in its adder (R362). -/
def State.countAdds (s : State) (port : Nat) (a : Adder) : State := (s.count (blkLink port) 0x11 a.esc).count (blkLink port) 0x14 a.nans

/-- A port's adder has added this member's contribution to a segment (R362). -/
def State.countAdder (s : State) (port : Nat) (a : Adder) : State := (s.count (blkLink port) 0x10 1).countAdds port a

/-! ### Collectives in progress -/

def State.coll? (s : State) (set : Nat) (tag : W32) : Option Coll := s.colls.find? (fun c => c.setId == set && c.tag == tag)
def Coll.is (c q : Coll) : Bool := c.ctx == q.ctx && c.idx == q.idx
def State.putColl (s : State) (c : Coll) : State := { s with colls := modFirst (fun q => q.is c) (fun _ => c) s.colls }
def Coll.done (c : Coll) (kind idx : Nat) : Coll := { c with left := c.left.filter (fun q => q != (kind, idx)) }

/-- The lowest-offset NaN record of what a member wrote (R351). -/
def Coll.noteNan (c : Coll) (off : Nat) (chip : Nat) : Coll :=
  match c.nan with
  | some (o, _) => if off < o then { c with nan := some (off, chip) } else c
  | none => { c with nan := some (off, chip) }

/-- The trace entry of a member that sets NAN_SEEN (R351, R606). -/
def State.nanTrace (s : State) (c : Coll) (o : Op) : State :=
  if c.sawNan then
    let (off, chip) := c.nan.getD (0, 0xFFFF)
    s.logEntry srcDmp sevWarn 0x5001 [off, off / 2 ^ 32 % 256 + fieldVal (chip % 4096) 16, c.tag.toNat,
      (dLayer o.desc).toNat + fieldVal (dOper o.desc).toNat 16]
  else s

/-- Elements of the destination as runs, for its digest (R335, R544). -/
def collRuns (d : Block) (n : Nat) : List (Nat × Nat) :=
  if dOpcode d = 0x31 then [(kDst d, kCount d / n)]
  else if dOpcode d = 0x32 then (upto n).map (fun r => (kDst d + r * pieceBytes d, kCount d))
  else [(kDst d, kCount d)]

/-- A collective with nothing left to do completes: new agreed codes are written (R350), then its record. -/
def State.collFinish (s : State) (c : Coll) (o : Op) (e : CollSet) : State :=
  let s := c.codes.foldl (fun s q => s.storeHome .fabric (kScale o.desc + q.1) [BitVec.ofNat 8 q.2] []) s
  let s := { s with colls := s.colls.filter (fun q => !q.is c) }
  let s := s.nanTrace c o
  s.complete (s.memDigest (collReport c o) (kMem o.desc) (collRuns o.desc e.n))

/-- Keep a collective, or complete it when it has nothing left to do; not while a Frost holds the device. -/
def State.collGo (s : State) (c : Coll) (o : Op) (e : CollSet) : State :=
  if c.left.isEmpty then s.collFinish c o e else s.putColl c

/-- Whether a queued message is a segment of a collective that this member has not sent yet; an ABORT is not. -/
def Coll.owns (c : Coll) (self : BitVec 12) (m : Msg) : Bool :=
  let h := headOf m
  (m.op == opColl || m.op == opCollCheck) && m.src == self && h.set == c.setId && h.tag == c.tag && !h.has cfAbort

/-- A collective ends early with a status: it sends nothing more, and later segments of its tag are discarded (R357 to
R359). Its counts still appear. -/
def State.collEnd (s : State) (c : Coll) (st : Byte) : State :=
  let s : State := { s with
    colls := s.colls.filter (fun q => !q.is c)
    collOver := (c.setId, c.tag) :: s.collOver
    links := s.links.map (fun l => { l with sendQ := l.sendQ.filter (fun m => !c.owns s.group.self m) }) }
  match s.op? c.ctx c.idx with
  | some o => ((s.nanTrace c o).endOp (collReport c o) st).settle c.ctx
  | none => s

/-- The ring ports of a set, each once. -/
def CollSet.ports (e : CollSet) : List Nat := (e.rings.flatMap (fun r => [r.cw, r.ccw])).eraseDups

/-- Send ABORT for a collective on every ring port of its set but one (R358). -/
def State.sendAborts (s : State) (c : Coll) (e : CollSet) (but : Nat) : State :=
  match s.op? c.ctx c.idx with
  | none => s
  | some o =>
    (e.rings.zipIdx).foldl (fun s r =>
      [(r.1.cw, 0), (r.1.ccw, 1)].foldl (fun s (q : Nat × Nat) =>
        if q.1 = but ∨ (s.link q.1).state.isDown then s
        else s.sendSeg c o.desc e { index := r.2, owner := 0, check := false, blocks := [], off := 0, len := 0 } false q.2 cfAbort
          plainSeg [] 0) s) s

/-- A collective with nothing done yet. -/
def newColl (ctx : Nat) (idx : W32) (set : Nat) (tag : W32) : Coll :=
  { ctx := ctx, idx := idx, setId := set, tag := tag, deadline := 0, left := [], segs := [], codes := [], esc := 0, nan := none
    sawNan := false, poison := false, mismatch := false, hold := [], begun := false, noCheck := [], ownBad := false }

/-- A collective of this member loses a peer: ABORT goes on, and it completes with PEER_LOST (R358). -/
def State.collLost (s : State) (c : Coll) (but : Nat) : State :=
  match s.collSet c.setId with
  | some e => (s.sendAborts c e but).collEnd c stPeerLost
  | none => s.collEnd c stPeerLost

/-! ### Results -/

/-- A member writes a result segment and notes what it reports of it (R349 to R352, R354). -/
def State.collWrite (s : State) (c : Coll) (d : Block) (e : CollSet) (p : SegPlan) (r : Seg) (flags : Nat) : Coll × State :=
  let f := kXport d
  let rank := e.rank s.group.self
  let first := if dOpcode d = 0x31 then shareStart d e.n rank else 0
  let s := s.writeBlocks d first p r
  let nan := (upto r.vals.length).any (r.isNan f)
  let c := if r.nanChip ≠ 0xFFFF then c.noteNan (32 * (p.blocks.headD 0) + r.nanOff) r.nanChip else c
  ({ c.done 2 p.index with
     esc := c.esc + (r.flags.filter (fun q => q % 2 == 1)).length
     codes := c.codes ++ (if kScaled d then (p.blocks.zipIdx).filterMap (fun j => (newCode f r j.2).map (fun k => (j.1, k))) else [])
     sawNan := c.sawNan || nan
     poison := c.poison || r.bad.any id
     mismatch := c.mismatch || flags / cfMismatch % 2 == 1 }, s)

/-- The owner has a result: it writes its own share, and sends an ALL_REDUCE's result round both ways (R343). Once a comparison of the
share has failed, every result of it carries MISMATCH (R354; log entry 20). -/
def State.collResult (s : State) (c : Coll) (d : Block) (e : CollSet) (p : SegPlan) (r : Seg) (flags : Nat) : Coll × State :=
  let c := { c with ownBad := c.ownBad || flags / cfMismatch % 2 == 1 }
  let flags := if c.ownBad && flags / cfMismatch % 2 == 0 then flags + cfMismatch else flags
  let (c, s) := s.collWrite c d e p r flags
  if dOpcode d = 0x30 then
    let s := if arc2 e.n > 0 then s.sendPartial c d e p false 0 (flags + cfGather) r else s
    (c, s.sendPartial c d e p false 1 (flags + cfGather) r)
  else (c, s)

/-- Sampled blocks of a segment whose two results differ (R354). -/
def blocksDiffer (r q : Seg) : Nat :=
  ((upto ((r.vals.length + 31) / 32)).filter (fun b =>
    (r.vals.drop (32 * b)).take 32 != (q.vals.drop (32 * b)).take 32 || unitAt 0 r.codes b != unitAt 0 q.codes b
      || unitAt 0 r.flags b != unitAt 0 q.flags b)).length

/-- The owner's check of a segment (R354 to R356): by the second path's result, or by carried sums where it has no independent route. -/
def State.collCheck (s : State) (port d n : Nat) (p : SegPlan) (indep : Bool) (r : Seg) (chk : Option Seg) : Nat × State :=
  match chk with
  | some q =>
    let k := blocksDiffer r q
    let s := s.count (blkLink port) 0x12 p.blocks.length
    (if 0 < k then (cfMismatch, s.count (blkLink port) 0x13 k) else (0, s))
  | none =>
    if indep then (0, s)
    else if !r.comparable then (cfUnchecked, s.count (blkLink port) 0x15 1)
    else
      let s := if p.check then s.count (blkLink port) 0x12 p.blocks.length else s
      if sumFails d n r then (cfMismatch, s.count (blkLink port) 0x13 1) else (0, s)

/-- The owner forms the result once every arc, and the check path's result where there is one, has come (R343, R354). -/
def State.collOwn (s : State) (c : Coll) (d : Block) (e : CollSet) (p : SegPlan) (port : Nat) : Coll × State :=
  let f := kXport d
  let me := s.group.self.toNat
  let st := (c.segs.find? (fun q => q.index == p.index)).getD { index := p.index, arcs := [], chk := none }
  let arcs := if ordered d p then 1 else if arc2 e.n = 0 then 1 else 2
  let indep := e.independent && !c.noCheck.contains p.index
  let needChk := p.check && indep
  if st.arcs.length < arcs ∨ (needChk ∧ st.chk.isNone) then (c, s)
  else
    let ring := e.ring (segRing e p false)
    let parts := st.arcs.map (fun m => (if (headOf m).dir = 0 then ring.ccw else ring.cw, segOf f p.elems m))
    let (r, c, s) :=
      if ordered d p then ((unitAt (0, plainSeg) parts 0).2, c, s)
      else
        let (own, s) := s.ownSeg d p
        let first := (unitAt (port, plainSeg) parts 0).1
        let (r, s) := parts.foldl (fun (acc : Seg × State) q =>
          let a := addSegs f me acc.1 q.2
          (a.seg, acc.2.countAdds q.1 a)) (own.seg, s.countAdder first own)
        (r, c.read own.seg, s)
    let (flags, s) := s.collCheck port f e.n p indep r (if needChk then st.chk.map (segOf f p.elems) else none)
    s.collResult { c with segs := c.segs.filter (fun q => q.index != p.index) } d e p r flags

/-- Keep an arrival of a segment at its owner. -/
def Coll.arrive (c : Coll) (i : Nat) (chk : Bool) (m : Msg) : Coll :=
  let st := (c.segs.find? (fun q => q.index == i)).getD { index := i, arcs := [], chk := none }
  let st := if chk then { st with chk := some m } else { st with arcs := st.arcs ++ [m] }
  { c with segs := st :: c.segs.filter (fun q => q.index != i) }

/-- A message with the content of a segment, as the owner keeps its own last addition. -/
def State.segMsg (s : State) (f : Nat) (m : Msg) (r : Seg) : Msg :=
  { m with data := headBytes (headOf m) r ++ segBytes f r, poison := segPoison f r.bad, src := s.group.self }

/-- An Ordered partial reaches a member (R344, R345): the member whose turn it is adds, and it goes on clockwise to the
next, or after the last addition to the owner. -/
def State.collTurn (s : State) (c : Coll) (d : Block) (e : CollSet) (p : SegPlan) (port : Nat) (chk : Bool) (m : Msg) : Coll × State :=
  let f := kXport d
  let rank := e.rank s.group.self
  let q := segOf f p.elems m
  let (c, q, s) :=
    if q.contrib = rank then
      let (own, s) := s.ownSeg d p
      let a := addOwn f s.group.self.toNat q own.seg
      ((c.read own.seg).done (if chk then 1 else 0) p.index, a.seg, s.countAdder port { a with esc := a.esc + own.esc })
    else (c, q, s)
  if q.contrib = e.n ∧ p.owner = rank then s.collOwn (c.arrive p.index chk (s.segMsg f m q)) d e p port
  else (c, s.sendPartial c d e p chk 0 0 q)

/-- An Arrival-mode partial reaches a member (R343): the owner keeps it, any other adds and sends it on. -/
def State.collArc (s : State) (c : Coll) (d : Block) (e : CollSet) (p : SegPlan) (port : Nat) (m : Msg) : Coll × State :=
  let f := kXport d
  if p.owner = e.rank s.group.self then s.collOwn (c.arrive p.index false m) d e p port
  else
    let (own, s) := s.ownSeg d p
    let a := addOwn f s.group.self.toNat (segOf f p.elems m) own.seg
    let s := s.countAdder port { a with esc := a.esc + own.esc }
    ((c.read own.seg).done 0 p.index, s.sendPartial c d e p false (headOf m).dir 0 a.seg)

/-- A result or a carried piece reaches a member: written, and sent on in its direction (R335, R343). -/
def State.collGather (s : State) (c : Coll) (d : Block) (e : CollSet) (p : SegPlan) (m : Msg) : Coll × State :=
  let h := headOf m
  let src := unitAt 0 e.members p.owner
  let ring := e.ring (segRing e p false)
  let dist := if h.dir = 0 then ring.dist src s.group.self else ring.dist s.group.self src
  let body := m.data.drop 48
  let s := if goesOn e.n h.dir dist then
      s.sendSeg c d e p false h.dir
        (cfGather + (if h.has cfMismatch then cfMismatch else 0) + (if h.has cfUnchecked then cfUnchecked else 0))
        (if kReduce d then segOf (kXport d) p.elems m else segOf 7 0 m) body m.poison else s
  if kReduce d then s.collWrite c d e p (segOf (kXport d) p.elems m) h.flags
  else
    let base := kDst d + (if dOpcode d = 0x32 then p.owner * pieceBytes d else 0) + p.off
    let bad := (upto p.len).map (fun i => m.poison.getLsbD ((48 + i) / 32))
    let gs := ((bad.zipIdx).filter (fun q => q.1)).map (fun q => granule (base + q.2))
    ({ c.done 2 p.index with poison := c.poison || bad.any id }, s.storeHome .fabric base (body.take p.len) gs)

/-! ### Arrivals -/

/-- A collective message of a member that has issued the collective: ABORT, a segment that is not this member's own
parameters, a result, or a partial (R338, R358). -/
def State.collMsg (s : State) (port : Nat) (c : Coll) (m : Msg) : State :=
  let h := headOf m
  let stale : State := s.count (blkLink port) 0x16 1
  match s.op? c.ctx c.idx, s.collSet c.setId with
  | some o, some e =>
    if h.has cfAbort then s.collLost c port
    else if h.crc ≠ paramCrc o.desc then stale
    else match (collPlan o.desc e).find? (fun p => p.index == m.opword.toNat) with
      | none => stale
      | some p =>
        let (c, s) :=
          if h.has cfGather then s.collGather c o.desc e p m
          else if m.op = opCollCheck then s.collTurn c o.desc e p port true m
          else if ordered o.desc p then s.collTurn c o.desc e p port false m
          else s.collArc c o.desc e p port m
        s.collGo c o e
  | _, _ => stale

/-- The port and the neighbour to which an Ordered partial goes on from a member that has added to it already and has
completed the collective since: such a partial still has to reach the next member of the order, or its owner (R344). -/
def State.relayTo (s : State) (m : Msg) : Option (Nat × BitVec 12) :=
  let h := headOf m
  match s.collSet h.set with
  | none => none
  | some e =>
    let ring := e.ring h.ring
    if h.has cfOrdered && !h.has cfGather && !h.has cfAbort && decide (e.rank s.group.self < fieldAt m.data 8 2)
      && decide (h.ring < e.rings.length) then
      some (ring.cw, unitAt 0 ring.order ((ring.order.idxOf s.group.self + 1) % max 1 ring.order.length))
    else none

/-- A collective message arrives (R338, R344, R357): for a collective in progress, for one that has ended here, for one
completed here that still goes through, or for one not yet issued or begun, which the port's buffer holds. -/
def State.collIn (s : State) (port : Nat) (m : Msg) : State :=
  let h := headOf m
  match s.coll? h.set h.tag with
  | some c =>
    if c.begun || h.has cfAbort then s.poisonWatch ((s.freeBuffers port m).collMsg port c m)
    else { s with collHeld := s.collHeld ++ [(port, m)] }
  | none =>
    if s.collOver.contains (h.set, h.tag) then (s.freeBuffers port m).count (blkLink port) 0x16 1
    else
      match s.relayTo m with
      | some (p, to_) => (s.freeBuffers port m).sendOn p { m with src := s.group.self, dst := to_, hops := 1 }
      | none => { s with collHeld := s.collHeld ++ [(port, m)] }

/-! ### Issue (R219, R221, R334 to R337, R358) -/

def collRanges (d : Block) (n rank root : Nat) : List (Nat × Nat × Nat) :=
  let b := pieceBytes d
  let dst := if dOpcode d = 0x31 then fmtBytes (kMem d) (kCount d / max 1 n) else if dOpcode d = 0x32 then n * b else b
  (if dOpcode d = 0x33 ∧ rank ≠ root then [] else [(pmRead, kSrc d, b)]) ++ [(pmWrite, kDst d, dst)]
  ++ (if kScaled d then [(pmRead, kScale d, kBlocks d), (pmWrite, kScale d, kBlocks d)] else [])

/-- A collective at issue: permission, formats, COUNT rules, ROOT, CHECK_LOG2, ranges, room among the 16. -/
def checkColl (s : State) (x : Context) (o : Op) : Verdict :=
  let d := o.desc
  let red := kReduce d
  let set := (s.collSet (kSet d)).filter (fun e => !e.refused)
  let n := (set.map (fun e => e.n)).getD 1
  let rank := (set.map (fun e => e.rank s.group.self)).getD 0
  let root := (set.map (fun e => e.rank (BitVec.ofNat 12 (kRoot d)))).getD 0
  let count := kCount d
  let rs := collRanges d n rank root
  firstFail
    [if lacks x 1 then some (.fail stNotPermitted 0) else none,
     lowest stBadFormat
       [(if red then !(kMem d == 7 || kMem d == 5 || kMem d == 6) else badFmtOf (kMem d), 40),
        (red && !(kXport d == 7 || kXport d == 5 || kXport d == 1), 41)],
     lowest stBadShape
       [(count == 0 || (dOpcode d == 0x31 && count % (32 * n) != 0) || (dOpcode d == 0x32 && decide ((2 ^ 40 - 1) / n < count)), 32),
        (dOpcode d == 0x33 && set.isSome && decide (n ≤ root), 44),
        (decide ((1 ≤ kLog2 d ∧ kLog2 d ≤ 3) ∨ 16 < kLog2 d), 46)],
     s.regions x rs,
     if s.colls.length + (s.pruneQ.filter (fun p => p.phase == .exchange)).length ≥ 16 then some (.wait .collectives) else none]
    (.go { o with outs := writesOf rs, d1 := 0xFFFF })

/-- The segments that a member starts (R343, R344): its own partials as the first of an arc or of an order, and the
bytes it carries as a source. -/
def State.collBegin (s : State) (c : Coll) (d : Block) (e : CollSet) : Coll × State :=
  let me := s.group.self
  let rank := e.rank me
  (collPlan d e).foldl (fun (acc : Coll × State) p =>
    let (c, s) := acc
    let ring := e.ring (segRing e p false)
    if kReduce d then
      let start (c : Coll) (s : State) (chk : Bool) (dir : Nat) : Coll × State :=
        let (own, s) := s.ownSeg d p
        let port := let r := e.ring (segRing e p chk); if dir = 0 then r.cw else r.ccw
        let s := s.countAdds port own
        ((c.read own.seg).done (if chk then 1 else 0) p.index, s.sendPartial c d e p chk dir 0 own.seg)
      let owner := unitAt 0 e.members p.owner
      let (c, s) :=
        if ordered d p then (if rank = 0 then start c s false 0 else (c, s))
        else if p.owner = rank then (c, s)
        else if ring.dist me owner = arc1 e.n then start c s false 0
        else if ring.dist owner me = arc2 e.n then start c s false 1
        else (c, s)
      if p.check && e.independent && !c.noCheck.contains p.index && rank == 0 then start c s true 0 else (c, s)
    else if p.owner = rank then
      let (l, s) := s.loadHome .fabric (kSrc d + p.off) p.len
      let base := kSrc d + p.off
      let bad := (upto p.len).map (fun i => l.bad.contains (granule (base + i)))
      let map : Block := (bad.zipIdx).foldl (fun b q => if q.1 then b ||| (1#512 <<< ((48 + q.2) / 32)) else b) 0
      let s := if arc2 e.n > 0 then s.sendSeg c d e p false 0 cfGather plainSeg l.bytes map else s
      let s := s.sendSeg c d e p false 1 cfGather plainSeg l.bytes map
      let dst := kDst d + (if dOpcode d = 0x32 then p.owner * pieceBytes d else 0) + p.off
      let gs := ((bad.zipIdx).filter (fun q => q.1)).map (fun q => granule (dst + q.2))
      ({ c.done 2 p.index with poison := c.poison || bad.any id }, s.storeHome .fabric dst l.bytes gs)
    else (c, s)) (c, s)

/-- A collective begins: which of its segments have an independent route (R355), its first segments, and the held ones of its tag (R338). -/
def State.collStart (s : State) (c : Coll) (o : Op) (e : CollSet) : State :=
  let d := o.desc
  let no := ((collPlan d e).filter (fun p => p.check && e.independent && !s.checkUp e p)).map (fun p => p.index)
  let c := { c with
    begun := true
    noCheck := no
    left := c.left.filter (fun q => !(q.1 == 1 && no.contains q.2)) }
  let (c, s) := s.collBegin c d e
  let s := s.putColl c
  let mine (q : Nat × Msg) : Bool := (headOf q.2).set == c.setId && (headOf q.2).tag == c.tag
  let held := s.collHeld.filter mine
  let s : State := { s with collHeld := s.collHeld.filter (fun q => !mine q) }
  let s := held.foldl (fun s q => s.collIn q.1 q.2) s
  match s.coll? c.setId c.tag with
  | some c => s.collGo c o e
  | none => s

/-- What waited for paused link adders goes on (R360): the collectives issued meanwhile begin, then the segments that arrived are added. -/
def State.addersGo (s : State) : State :=
  let s := (s.colls.filter (fun c => !c.begun)).foldl (fun (s : State) c =>
    match s.op? c.ctx c.idx, s.collSet c.setId with
    | some o, some e => s.poisonWatch (s.collStart c o e)
    | _, _ => s) s
  let q := s.adderQ
  q.foldl (fun (t : State) (e : Nat × Msg) => t.collIn e.1 e.2) { s with adderQ := [] }

/-- Starting a collective: GROUP_ABSENT outside a formed group or without its set (R332), PEER_LOST with a ring link not
UP (R358), its destination then open; else it begins, unless the link adders are paused (R360). -/
def startColl (s : State) (o : Op) : State :=
  let d := o.desc
  match (s.collSet (kSet d)).filter (fun e => !e.refused) with
  | none => s.finish (o.raise stGroupAbsent)
  | some e =>
    if !s.group.formed then s.finish (o.raise stGroupAbsent)
    else if e.ports.any (fun n => (s.link n).state != .up) then s.endOp o stPeerLost
    else
      let c : Coll :=
        { newColl o.ctx o.idx (kSet d) (kTag d) with
          deadline := s.nowN + kTimeout d
          left := (collPlan d e).flatMap (duties d e (e.rank s.group.self))
          hold := if kOrdered d then e.ports else [] }
      let s : State := { s with colls := s.colls ++ [c], collOver := s.collOver.filter (fun q => q != (c.setId, c.tag)) }
      if 4 ≤ s.pwr.shed then s else s.poisonWatch (s.collStart c o e)

def issueColl (op : Nat) (s : State) (c : Nat) : State := s.issue c op checkColl startColl

/-- ALL_REDUCE begins at issue (R334, R336). -/
def execAllReduce (c : Fin 64) (s : State) : Done := .next (issueColl 0x30 s c)
/-- REDUCE_SCATTER begins at issue (R334, R336). -/
def execReduceScatter (c : Fin 64) (s : State) : Done := .next (issueColl 0x31 s c)
/-- ALL_GATHER begins at issue (R334 to R336). -/
def execAllGather (c : Fin 64) (s : State) : Done := .next (issueColl 0x32 s c)
/-- BROADCAST begins at issue (R334 to R336). -/
def execBroadcast (c : Fin 64) (s : State) : Done := .next (issueColl 0x33 s c)

end Sys2Proof.Machine
end

