-- ==== Sys2Proof/Machine/Pruner.lean ====
section
/-! DEFINITION. The Pruners (R363 to R386): PRUNE_UPDATE and SWEEP at issue, the queue and its shares, the schedule, the
update rules, the norm exchange, sweeps; and the end of a collective by its timeout, which ends an exchange too. -/

namespace Sys2Proof.Machine

open Sys2Proof

/-! ### Fields (R218) -/

def pParam (d : Block) : Nat := fld d 16 6
def pGrad (d : Block) : Nat := fld d 22 6
def pM (d : Block) : Nat := fld d 28 6
def pV (d : Block) : Nat := fld d 34 6
def pCount (d : Block) : Nat := fld d 40 5
def pGroupNo (d : Block) : Nat := fld d 48 1
def pRule (d : Block) : Nat := fld d 49 1
def pFmt (d : Block) : Nat := fld d 50 1
def pSet (d : Block) : Nat := fld d 51 1
def pStep (d : Block) : Nat := fld d 52 4
def pGradScale (d : Block) : Nat := fld d 56 4
def pGradSize (d : Block) : Nat := if pFmt d = 5 then 2 else 4

def wX (d : Block) : Nat := fld d 16 6
def wY (d : Block) : Nat := fld d 22 6
def wZ (d : Block) : Nat := fld d 28 6
def wCount (d : Block) : Nat := fld d 34 5
def wOp (d : Block) : Nat := fld d 39 1
def wFmt (d : Block) : Nat := fld d 40 1
def wPred (d : Block) : Nat := fldBits d 41 1 2 0
def wUseZ (d : Block) : Bool := fldBit d 41 3
def wCoef (d : Block) : Nat := fld d 48 6
def wResult (d : Block) : Nat := fld d 56 6
def wSize (d : Block) : Nat := if wFmt d = 9 then 8 else 4
/-- AXPBYPCZ and CLAMP write Y; COUNT_CMP and NORM write a record (R381). -/
def wWrites (d : Block) : Bool := wOp d == 1 || wOp d == 2

/-- Words of a parameter group (R367). -/
def pgWord (g : List W32) (i : Nat) : Nat := (unitAt 0 g i).toNat
def pgBit (g : List W32) (i : Nat) : Bool := bitOf (pgWord g 12) i
def pgFrozen (g : List W32) : Bool := pgBit g 0
def pgSkip (g : List W32) : Bool := !pgBit g 1

/-! ### Schedule engine (R368) -/

/-- A number as an FP64 word. -/
def natW64 (n : Nat) : Nat := fp64.encode false (.fin false n 0)
/-- An FP32 word as an FP64 word. -/
def wideW (a : Nat) : Nat := fp32.toFmt fp64 a
def one64 : Nat := 0x3FF0_0000_0000_0000
def two64 : Nat := 0x4000_0000_0000_0000
def pi64 : Nat := 0x4009_21FB_5444_2D18
/-- cos of an angle from 0 to pi, within 1 ulp (R368; log entry 6). -/
def cosW (a : Nat) : Nat :=
  match fp64.decode a with
  | .fin _ m e => fp64.within 1 (cosOf m e) (Config.cos64 (BitVec.ofNat 64 a)).toNat
  | _ => fp64.nan.getD 0

/-- Whether an exponent is a whole number, and whether it is odd. -/
def wholeExp (m : Nat) (e : Int) : Bool × Bool :=
  if 0 ≤ e then (true, e == 0 && m % 2 == 1)
  else
    let q := 2 ^ (-e).toNat
    (m % q == 0, m / q % 2 == 1)

/-- a to the power b, within 1 ulp (R368; log entry 6). A NaN operand gives NaN (R78); powers of zero, of infinities and of negative numbers
to whole exponents are the function's limits. A negative number to another exponent has no value: a free one. -/
def powW (a b : Nat) : Nat :=
  let cand := (Config.pow64 (BitVec.ofNat 64 a) (BitVec.ofNat 64 b)).toNat
  let inf (n : Bool) : Nat := fp64.encode false (.inf n)
  match fp64.decode a, fp64.decode b with
  | .nan, _ => fp64.nan.getD 0
  | _, .nan => fp64.nan.getD 0
  | _, .inf _ => cand
  | .inf n, .fin nb mb eb =>
    let (whole, odd) := wholeExp mb eb
    if mb = 0 then one64
    else if n && !whole then cand
    else if nb then fp64.sign (n && odd) else inf (n && odd)
  | .fin n m e, .fin nb mb eb =>
    let (whole, odd) := wholeExp mb eb
    if mb = 0 then one64
    else if m = 0 then (if nb then inf (n && odd) else fp64.sign (n && odd))
    else if n && !whole then cand
    else
      let x := powOf m e nb mb eb
      fp64.within 1 (if n && odd then x.neg else x) cand

/-- The period that a step lies in and the steps into it, with restarts (R368), by fuel: 40 periods hold every 32-bit count
when the multiplier is 2 or more. -/
def restart (mult : Nat) : Nat → Nat → Nat → Nat × Nat
  | 0, tau, p => (tau, p)
  | k + 1, tau, p => if tau < p then (tau, p) else if mult = 1 then (tau % p, p) else restart mult k (tau - p) (p * mult)

/-- The multiplier T_MULT as read: 1 to 16 (R367). -/
def tMult (g : List W32) : Nat := min 16 (max 1 (bitsOf (pgWord g 12) 23 16))

/-- The learning rate at step `t`, an FP32 word (R368). -/
def lrSchedule (g : List W32) (t : Nat) : Nat :=
  let warm := pgWord g 8
  let f :=
    if warm > 0 ∧ t < warm then
      let x := fp64.divW (natW64 t) (natW64 warm)
      if pgBit g 3 then powW (wideW (pgWord g 13)) (fp64.subW one64 x) else x
    else one64
  let tau0 := t - warm
  let lo := wideW (pgWord g 7)
  let kind := bitsOf (pgWord g 12) 5 4
  let d :=
    if kind = 0 ∨ pgWord g 9 = 0 then one64
    else
      let (tau, p) := if pgBit g 6 then restart (tMult g) 40 tau0 (pgWord g 9) else (min tau0 (pgWord g 9), pgWord g 9)
      let span := fp64.subW one64 lo
      if kind = 1 then fp64.subW one64 (fp64.divW (fp64.mulW span (natW64 tau)) (natW64 p))
      else if kind = 2 then
        let c := cosW (fp64.divW (fp64.mulW pi64 (natW64 tau)) (natW64 p))
        fp64.addW lo (fp64.divW (fp64.mulW span (fp64.addW one64 c)) two64)
      else fp64.minmax true lo (powW (wideW (pgWord g 11)) (natW64 (tau / max 1 (pgWord g 10))))
  fp64.toFmt fp32 (fp64.mulW (fp64.mulW (wideW (pgWord g 0)) f) d)

/-! ### Update rules (R369) -/

/-- Per-command constants, FP32 words. -/
structure PrConst where
  lr  : Nat
  k   : Nat
  b1  : Nat
  b2  : Nat
  a1  : Nat
  a2  : Nat
  rb1 : Nat
  rb2 : Nat
  eps : Nat
  wd  : Nat
  gs  : Nat
deriving DecidableEq, Repr

def one32 : Nat := 0x3F80_0000
def negW32 (a : Nat) : Nat := a ^^^ 0x8000_0000

/-- 1 / (1 - beta^t), formed in FP64 and rounded to FP32. -/
def biasCorr (beta t : Nat) : Nat :=
  fp64.toFmt fp32 (fp64.divW one64 (fp64.subW one64 (powW (wideW beta) (natW64 t))))

/-- The constants of a command; a frozen group does not consult the schedule (R376). -/
def prConst (d : Block) (g : List W32) : PrConst :=
  let lr := if pgFrozen g then 0 else lrSchedule g (pStep d)
  let wd := pgWord g 1
  let corr := pgBit g 2 && pRule d != 1
  { lr := lr, k := fp32.subW one32 (fp32.mulW lr wd), b1 := pgWord g 2, b2 := pgWord g 3
    a1 := fp32.subW one32 (pgWord g 2), a2 := fp32.subW one32 (pgWord g 3)
    rb1 := if corr then biasCorr (pgWord g 2) (pStep d) else one32
    rb2 := if corr then biasCorr (pgWord g 3) (pStep d) else one32
    eps := pgWord g 4, wd := wd, gs := pGradScale d }

/-- g of an element (R369): BF16 widened exactly. -/
def prG (d : Block) (c : PrConst) (code : Nat) : Nat := fp32.mulW c.gs (if pFmt d = 5 then code * 65536 else code)

/-- m of rule 1; m and v of the others (R369). -/
def prM1 (c : PrConst) (g m : Nat) : Nat := fp32.fmaW c.b1 m g
def prM2 (c : PrConst) (g m : Nat) : Nat := fp32.fmaW c.b1 m (fp32.mulW c.a1 g)
def prV (c : PrConst) (g v : Nat) : Nat := fp32.fmaW c.b2 v (fp32.mulW c.a2 (fp32.mulW g g))
/-- q from the new m and v. -/
def prQ (c : PrConst) (m v : Nat) : Nat :=
  fp32.divW (fp32.mulW m c.rb1) (fp32.addW (fp32.sqrtW (fp32.mulW v c.rb2)) c.eps)
/-- u of rule 3 from q and w before the update. -/
def prU (c : PrConst) (q w : Nat) : Nat := fp32.addW q (fp32.mulW c.wd w)

/-- An element's w, m, v after its rule (R369): `rho` from the norm phase. -/
def prStep (d : Block) (c : PrConst) (rho w g m v : Nat) : Nat × Nat × Nat :=
  if pRule d = 1 then
    let m := prM1 c g m
    (fp32.fmaW (negW32 c.lr) m (fp32.mulW c.k w), m, v)
  else
    let m := prM2 c g m
    let v := prV c g v
    let q := prQ c m v
    if pRule d = 2 then (fp32.fmaW (negW32 c.lr) q (fp32.mulW c.k w), m, v)
    else (fp32.fmaW (negW32 rho) (prU c q w) w, m, v)

/-- u of an element in phase 1 (R372). -/
def prNormU (c : PrConst) (w g m v : Nat) : Nat := prU c (prQ c (prM2 c g m) (prV c g v)) w

/-- rho (R374): from the layer sums and the group's entry. -/
def prRho (g : List W32) (lr w u : Nat) : Nat :=
  if !(fp64.isFinW w && fp64.isFinW u) then 0x7FC0_0000
  else
    let wn := fp64.sqrtW w
    let un := fp64.sqrtW u
    let pos (a : Nat) : Bool := (FV.fin false 0 0).lt (fp64.decode a)
    let r := if pos wn && pos un then fp64.divW (fp64.mulW (wideW (pgWord g 5)) wn) un else one64
    let r := if pos (wideW (pgWord g 6)) then fp64.minmax false r (wideW (pgWord g 6)) else r
    fp64.toFmt fp32 (fp64.mulW (wideW lr) r)

/-! ### Shares (R363) -/

/-- The elements of an operand in one stack, in ascending address: runs of first element and count. -/
def stackRuns (base size count stack : Nat) : List (Nat × Nat) :=
  ((upto (ceilDiv (base % 1024 + size * count) 1024)).filter (fun k => (base / 1024 + k) % 8 == stack)).map (fun k =>
    let lo := max base (1024 * (base / 1024 + k))
    let hi := min (base + size * count) (1024 * (base / 1024 + k) + 1024)
    ((lo - base) / size, (hi - lo) / size))

def isSweep (d : Block) : Bool := dOpcode d == 0x39

/-- The anchor operand, its element size and count (R363). -/
def prAnchor (d : Block) : Nat × Nat × Nat :=
  if isSweep d then (if wWrites d then wY d else wX d, wSize d, wCount d) else (pParam d, 4, pCount d)

def prRuns (d : Block) (n : Nat) : List (Nat × Nat) :=
  let a := prAnchor d
  stackRuns a.1 a.2.1 a.2.2 n

/-- The number of elements of a share. -/
def prShare (d : Block) (n : Nat) : Nat := ((prRuns d n).map Prod.snd).foldl (· + ·) 0

/-- The ranges of a command, for overlaps with a waiting one (R364). -/
def prRanges (d : Block) : List (Nat × Nat) :=
  if isSweep d then
    [(wX d, wSize d * wCount d), (wY d, wSize d * wCount d)] ++ (if wUseZ d then [(wZ d, wSize d * wCount d)] else [])
    ++ (if wWrites d then [] else [(wResult d, 32)])
  else
    [(pParam d, 4 * pCount d), (pGrad d, pGradSize d * pCount d), (pM d, 4 * pCount d)]
    ++ (if pRule d = 1 then [] else [(pV d, 4 * pCount d)])

def rngMeet (a b : Nat × Nat) : Bool := decide (a.1 < b.1 + b.2 ∧ b.1 < a.1 + a.2)

/-! ### The queue (R364) -/

def PruneCmd.is (p q : PruneCmd) : Bool := p.ctx == q.ctx && p.idx == q.idx
def State.putPrune (s : State) (p : PruneCmd) : State := { s with pruneQ := modFirst (fun q => q.is p) (fun _ => p) s.pruneQ }
def State.dropPrune (s : State) (p : PruneCmd) : State := { s with pruneQ := s.pruneQ.filter (fun q => !q.is p) }

/-- What Pruner `n` runs next (R364, R384): the first share due in queue order. Only a command that waits for its exchange, and a SWEEP that
is paused, are passed, by commands whose ranges meet none of theirs. `held`: ranges of the commands passed. -/
def State.prNext (s : State) (n : Nat) : List PruneCmd → List (Nat × Nat) → Option (PruneCmd × Op)
  | [], _ => none
  | p :: t, held =>
    match s.op? p.ctx p.idx with
    | none => s.prNext n t held
    | some o =>
      let fin := unitAt true p.done n
      if p.phase = .exchange ∨ (p.phase = .norm ∧ fin) ∨ (p.phase = .sweep ∧ !fin ∧ s.sweepPaused n) then s.prNext n t (held ++ prRanges o.desc)
      else if p.phase = .scan ∧ fin then none
      else if fin then s.prNext n t held
      else if (prRanges o.desc).any (fun r => held.any (rngMeet r)) then none
      else some (p, o)

/-- The progress windows of the Pruners to which work is offered that had none before begin anew (R385). -/
def State.prOffer (old s : State) : State :=
  (upto 8).foldl (fun (t : State) n =>
    if (old.prNext n old.pruneQ []).isNone && (s.prNext n s.pruneQ []).isSome then t.modHbm n (fun h => { h with prnProgT := s.nowN })
    else t) s

/-- The event bits of a Pruner (PRN_EVENT). -/
def State.prEvent (s : State) (n bit : Nat) : State := s.modHbm n (fun h => { h with prnEvent := setBits h.prnEvent (2 ^ bit) })

/-! ### The end of a command -/

/-- A Pruner command ends with what it found (R226, R229, R230); its digest is of the parameters or of Y (R206). -/
def State.prFinish (s : State) (p : PruneCmd) (o : Op) (st : Byte) : State :=
  let o := o.raise st
  let o := if p.seen || p.poison then o.flag rfPoison else o
  let o := if p.poison then o.raise stPoison else o
  let a := prAnchor o.desc
  let fmt := if isSweep o.desc then wFmt o.desc else 7
  let base := if isSweep o.desc then wY o.desc else a.1
  (s.dropPrune p).complete (s.memDigest o fmt [(base, a.2.2)])

/-- A command that wrote nothing (R376, R377): DETAIL_0 is COUNT. Each share of a frozen group's adds COUNT to FROZEN_SKIPS; of a skipped
step each Pruner counts the elements of its share. -/
def State.prSkipped (s : State) (p : PruneCmd) (o : Op) (st : Byte) (sel bit : Nat) : State :=
  let s := (upto 8).foldl (fun s n =>
    (s.count (blkHbm n) sel (if sel = 0x21 then pCount o.desc else prShare o.desc n)).prEvent n bit) s
  s.prFinish p { o with d0 := BitVec.ofNat 32 (satAt (2 ^ 32 - 1) (pCount o.desc)) } st

/-- An exchange ends without all partials (R375): phase 3 does not run. -/
def State.prFail (s : State) (p : PruneCmd) (o : Op) (st : Byte) : State :=
  let s := (upto 8).foldl (fun s n => s.count (blkHbm n) 0x26 1) s
  s.prFinish p { o with d0 := BitVec.ofNat 32 (satAt (2 ^ 32 - 1) (pCount o.desc)) } st

/-- The result record of a sweep (R381, R382), written after every element has been read. -/
def State.sweepResult (s : State) (p : PruneCmd) (o : Op) : Op × State :=
  let d := o.desc
  if wWrites d then (o, s)
  else if wOp d = 3 then
    ({ o with d0 := BitVec.ofNat 32 p.count }, s.storeHome .fabric (wResult d) (bytesOf 8 p.count ++ bytesOf 8 p.extra ++ List.replicate 16 0) [])
  else
    let tot (l : List Nat) : Nat := l.foldl fp64.addW 0
    (o, s.storeHome .fabric (wResult d) (bytesOf 8 (tot p.wPart) ++ bytesOf 8 (tot p.uPart)
      ++ bytesOf 8 (p.amax.foldl (fp64.minmax true) 0) ++ bytesOf 8 p.extra) [])

/-- Whether a set's ring links are all UP (R358). -/
def State.ringsUp (s : State) (e : CollSet) : Bool := e.ports.all (fun n => (s.link n).state == .up)

/-- The shares of a phase: those without elements are finished at once. -/
def freshShares (d : Block) : List Bool := (upto 8).map (fun n => prShare d n == 0)

/-- The collectives in progress, trust-ratio exchanges among them (R337, R373). -/
def State.collCount (s : State) : Nat := s.colls.length + (s.pruneQ.filter (fun p => p.phase == .exchange)).length

/-- Go on from a phase whose shares have all finished, by fuel (a command has at most three phases after its first). An exchange begins when
fewer than 16 collectives are in progress (R337), in the group (R31) and over rings that are UP (R358). -/
def State.prGo (s : State) (p : PruneCmd) (o : Op) : Nat → State
  | 0 => s.putPrune p
  | k + 1 =>
    if !p.done.all id then s.putPrune p
    else match p.phase with
      | .scan =>
        if p.nonfin then s.prSkipped p o stOkSkipped 0x22 1
        else s.prGo { p with phase := .update, done := freshShares o.desc } o k
      | .frozen => s.prSkipped p o stOkFrozen 0x21 0
      | .update => s.prFinish p o stOk
      | .apply => s.prFinish p o stOk
      | .sweep =>
        let (o, s) := s.sweepResult p o
        s.prFinish p o stOk
      | .norm =>
        match (s.collSet (pSet o.desc)).filter (fun e => !e.refused) with
        | some e =>
          if !s.group.formed then s.prFail p o stGroupAbsent
          else if !s.ringsUp e then s.prFail p o stPeerLost
          else if s.collCount ≥ 16 then s.putPrune p
          else s.putPrune { p with phase := .exchange, at_ := s.nowN }
        | none => s.prFail p o stGroupAbsent
      | .exchange => s.putPrune p

/-! ### A share's work -/

/-- A run of an operand: element codes, poison by element (R365: uncached). -/
def State.prRead (s : State) (n fmt base : Nat) (r : Nat × Nat) : (List Nat × List Bool) × State :=
  let a := base + fmtBits fmt / 8 * r.1
  let (l, s) := s.loadHome (.pruner n) a (fmtBits fmt / 8 * r.2)
  ((rowCodes fmt r.2 l, (upto r.2).map (elemBad fmt a l)), s)

/-- Write a run of an operand, poisoned elements' granules as zero and poisoned (R379, R382, R610). -/
def State.prWrite (s : State) (n fmt base : Nat) (r : Nat × Nat) (cs : List Nat) (bad : List Bool) : State :=
  let sz := fmtBits fmt / 8
  s.putBad (.pruner n) (base + sz * r.1) (bytesOfElems fmt cs) (bad.flatMap (fun b => List.replicate sz b))

/-- One run of a share in an update's operands: w, g, m, v with their poison, the gradient's alone, and that of the others. -/
structure PrRun where
  w  : List Nat
  g  : List Nat
  m  : List Nat
  v  : List Nat
  bad  : List Bool
  gbad : List Bool
  sbad : List Bool
deriving DecidableEq, Repr

def State.prLoad (s : State) (n : Nat) (d : Block) (c : PrConst) (r : Nat × Nat) : PrRun × State :=
  let (w, s) := s.prRead n 7 (pParam d) r
  let (g, s) := s.prRead n (pFmt d) (pGrad d) r
  let (m, s) := s.prRead n 7 (pM d) r
  let (v, s) := if pRule d = 1 then (([], []), s) else s.prRead n 7 (pV d) r
  let at_ (l : List Bool) (k : Nat) : Bool := unitAt false l k
  ({ w := w.1, g := g.1.map (prG d c), m := m.1, v := v.1
     bad := (upto r.2).map (fun k => at_ w.2 k || at_ g.2 k || at_ m.2 k || at_ v.2 k), gbad := g.2
     sbad := (upto r.2).map (fun k => at_ w.2 k || at_ m.2 k || at_ v.2 k) }, s)

/-- Bytes of one element that an update reads, and writes (R371). -/
def prReadSize (d : Block) : Nat := pGradSize d + (if pRule d = 1 then 8 else 12)
def prWriteSize (d : Block) : Nat := if pRule d = 1 then 8 else 12

def State.prBytes (s : State) (n rd wr : Nat) : State := (s.count (blkHbm n) 0x29 rd).count (blkHbm n) 0x2A wr

/-- Poisoned elements of a share: counted, PRN_EVENT.POISON. -/
def State.prPoison (s : State) (n k : Nat) : State := if k = 0 then s else (s.count (blkHbm n) 0x24 k).prEvent n 3

/-- How many are true. -/
def trues (l : List Bool) : Nat := (l.filter id).length

/-- The scan of a share's gradient (R377), and a frozen group's read of it (R376): non-finite elements are counted only by the
scan, poisoned ones not tested. -/
def State.prScan (s : State) (p : PruneCmd) (o : Op) (n : Nat) : PruneCmd × State :=
  let d := o.desc
  let c := prConst d o.pgroup
  let test := p.phase == .scan
  let (p, s) := (prRuns d n).foldl (fun (acc : PruneCmd × State) r =>
    let (g, s) := acc.2.prRead n (pFmt d) (pGrad d) r
    let nf := trues ((upto r.2).map (fun k => test && !unitAt false g.2 k && !fp32.isFinW (prG d c (unitAt 0 g.1 k))))
    let s := if nf = 0 then s else (s.count (blkHbm n) 0x23 nf).prEvent n 2
    let b := trues g.2
    let s := if test then s else if b = 0 then s else s.prEvent n 3
    ({ acc.1 with nonfin := acc.1.nonfin || decide (nf ≠ 0), poison := acc.1.poison || (test && decide (b ≠ 0))
                  seen := acc.1.seen || decide (b ≠ 0) }, s)) (p, s)
  (p, s.prBytes n (pGradSize d * prShare d n) 0)

/-- The update of a share (R369, R374, R379). Under rule 0x03 the norm phase has counted its poisoned elements. -/
def State.prUpdate (s : State) (p : PruneCmd) (o : Op) (n : Nat) : PruneCmd × State :=
  let d := o.desc
  let c := prConst d o.pgroup
  let (p, s) := (prRuns d n).foldl (fun (acc : PruneCmd × State) r =>
    let (x, s) := acc.2.prLoad n d c r
    let new := (upto r.2).map (fun k =>
      prStep d c p.rho.toNat (unitAt 0 x.w k) (unitAt 0 x.g k) (unitAt 0 x.m k) (unitAt 0 x.v k))
    let s := s.prWrite n 7 (pParam d) r (new.map (fun e => e.1)) x.bad
    let s := s.prWrite n 7 (pM d) r (new.map (fun e => e.2.1)) x.bad
    let s := if pRule d = 1 then s else s.prWrite n 7 (pV d) r (new.map (fun e => e.2.2)) x.bad
    let b := trues x.bad
    ({ acc.1 with poison := acc.1.poison || decide (b ≠ 0) }, if pRule d = 3 then s else s.prPoison n b)) (p, s)
  (p, (s.count (blkHbm n) 0x20 (prShare d n)).prBytes n (prReadSize d * prShare d n) (prWriteSize d * prShare d n))

/-- Sixteen FP64 lanes summed in pairs (R372). -/
def prTree (l : List Nat) : Nat := unitAt 0 (laneTree fp64.addW 4 l) 0
def lanes0 : List Nat := List.replicate 16 0

/-- Phase 1 of a share (R372, R377): its partial sums, its marks; poisoned elements left out, keeping their lane. -/
def State.prNorm (s : State) (p : PruneCmd) (o : Op) (n : Nat) : PruneCmd × State :=
  let d := o.desc
  let c := prConst d o.pgroup
  let test := !pgFrozen o.pgroup && pgSkip o.pgroup
  let z : (List Nat × List Nat × Nat) × PruneCmd × State := ((lanes0, lanes0, 0), p, s)
  let (l, p, s) := (prRuns d n).foldl (fun (acc : (List Nat × List Nat × Nat) × PruneCmd × State) r =>
    let (x, s) := acc.2.2.prLoad n d c r
    let p := acc.2.1
    let l := (upto r.2).foldl (fun (l : List Nat × List Nat × Nat) k =>
      let j := l.2.2 % 16
      if unitAt false x.bad k then (l.1, l.2.1, l.2.2 + 1)
      else
        let w := wideW (unitAt 0 x.w k)
        let u := wideW (prNormU c (unitAt 0 x.w k) (unitAt 0 x.g k) (unitAt 0 x.m k) (unitAt 0 x.v k))
        (l.1.modify j (fp64.fmaW w w), l.2.1.modify j (fp64.fmaW u u), l.2.2 + 1)) acc.1
    let nf := trues ((upto r.2).map (fun k => test && !unitAt false x.gbad k && !fp32.isFinW (unitAt 0 x.g k)))
    let s := if nf = 0 then s else (s.count (blkHbm n) 0x23 nf).prEvent n 2
    let b := trues x.bad
    -- a frozen group does not consume a poisoned gradient (R376)
    let own := if pgFrozen o.pgroup then trues x.sbad else b
    (l, { p with nonfin := p.nonfin || decide (nf ≠ 0), poison := p.poison || decide (own ≠ 0), seen := p.seen || decide (b ≠ 0) },
      s.prPoison n b)) z
  ({ p with wPart := p.wPart.set n (prTree l.1), uPart := p.uPart.set n (prTree l.2.1) },
    s.prBytes n (prReadSize d * prShare d n) 0)

/-- A coefficient of a sweep in its format, from the block read at issue (R380). -/
def sweepCoef (o : Op) (off : Nat) : Nat := if wFmt o.desc = 9 then fld o.ext off 8 else fp64.toFmt fp32 (fld o.ext off 8)

/-- v of an element (R381). -/
def sweepV (o : Op) (x y z : Nat) : Nat :=
  let f := cfmt (wFmt o.desc == 9)
  let v := f.fmaW (sweepCoef o 0) x (f.mulW (sweepCoef o 8) y)
  let v := if wUseZ o.desc then f.fmaW (sweepCoef o 16) z v else v
  if fldBit o.ext 48 0 then f.encode false (f.decode v).abs else v

/-- A sweep's share (R381, R382). -/
def State.prSweep (s : State) (p : PruneCmd) (o : Op) (n : Nat) : PruneCmd × State :=
  let d := o.desc
  let f := cfmt (wFmt d == 9)
  let to64 (a : Nat) : Nat := if wFmt d = 9 then a else wideW a
  let z0 : (List Nat × List Nat × Nat × Nat) × PruneCmd × State := ((lanes0, lanes0, 0, 0), p, s)
  let (l, p, s) := (prRuns d n).foldl (fun (acc : (List Nat × List Nat × Nat × Nat) × PruneCmd × State) r =>
    let (x, s) := acc.2.2.prRead n (wFmt d) (wX d) r
    let (y, s) := s.prRead n (wFmt d) (wY d) r
    let (z, s) := if wUseZ d then s.prRead n (wFmt d) (wZ d) r else (([], []), s)
    let bad := (upto r.2).map (fun k => unitAt false x.2 k || unitAt false y.2 k || unitAt false z.2 k)
    let vs := (upto r.2).map (fun k => sweepV o (unitAt 0 x.1 k) (unitAt 0 y.1 k) (unitAt 0 z.1 k))
    let s := if wWrites d then
        s.prWrite n (wFmt d) (wY d) r (if wOp d = 2 then
          vs.map (fun v => f.minmax false (f.minmax true v (sweepCoef o 24)) (sweepCoef o 32)) else vs) bad
      else s
    let p := acc.2.1
    let good := (upto r.2).filter (fun k => !unitAt false bad k)
    let hit := if wOp d = 3 then
        (good.filter (fun k => cmpPred (wPred d) (f.decode (unitAt 0 vs k)) (f.decode (sweepCoef o 40)))).length else 0
    let nf := if wWrites d then 0 else (good.filter (fun k => !f.isFinW (unitAt 0 vs k))).length
    let l := if wOp d = 4 then (upto r.2).foldl (fun (l : List Nat × List Nat × Nat × Nat) k =>
        let j := l.2.2.1 % 16
        let v := to64 (unitAt 0 vs k)
        if unitAt false bad k || !fp64.isFinW v then (l.1, l.2.1, l.2.2.1 + 1, l.2.2.2)
        else (l.1.modify j (fun a => fp64.addW a v), l.2.1.modify j (fp64.fmaW v v), l.2.2.1 + 1,
          fp64.minmax true l.2.2.2 (fp64.encode false (fp64.decode v).abs))) acc.1
      else acc.1
    let b := trues bad
    (l, { p with poison := p.poison || decide (b ≠ 0), count := p.count + hit, extra := p.extra + nf }, s.prPoison n b)) z0
  let k := prShare d n
  let s := (s.count (blkHbm n) 0x27 k).prBytes n (wSize d * k * (if wUseZ d then 3 else 2)) (if wWrites d then wSize d * k else 0)
  ({ p with wPart := p.wPart.set n (prTree l.1), uPart := p.uPart.set n (prTree l.2.1), amax := p.amax.set n l.2.2.2 }, s)

/-- A Pruner finishes the share it runs (R363): its work, and what follows when it was the phase's last. -/
def State.prShareDone (s : State) (p : PruneCmd) (o : Op) (n : Nat) : State :=
  let (p, s) := match p.phase with
    | .scan => s.prScan p o n
    | .frozen => s.prScan p o n
    | .norm => s.prNorm p o n
    | .sweep => s.prSweep p o n
    | _ => s.prUpdate p o n
  let s := s.modHbm n (fun h => { h with prnProgT := s.nowN })
  State.prOffer s (s.prGo { p with done := p.done.set n true } o 4)

/-- A Pruner finishes its share (R363, R364, R384, R385); not at shed stage 6 (R453). -/
def execPrunerShareDone (stack : Fin 8) (s : State) : Done :=
  let n := stack.val
  .next (if (s.frost.phase = .running ∨ s.frost.phase = .cutting) ∧ !(s.hbm n).prnReset ∧ s.pwr.shed < 6 then
      match s.prNext n s.pruneQ [] with
      | some (p, o) =>
        if s.mayFinish o then s.poisonWatch ((s.modHbm n (fun h => { h with prnProgT := s.nowN })).prShareDone p o n) else s
      | none => s
    else s)

/-! ### The norm exchange (R373 to R378) -/

/-- This member's partial: the partials of Pruners 0 to 7 in order (R372). -/
def PruneCmd.own (p : PruneCmd) (chip : BitVec 12) : NormPart :=
  { chip := chip, w := BitVec.ofNat 64 (p.wPart.foldl fp64.addW 0), u := BitVec.ofNat 64 (p.uPart.foldl fp64.addW 0)
    poisoned := p.seen, nonfinite := p.nonfin }

/-- The members' partials in ascending chip order, this member's own among them (R373). -/
def sortParts (members : List (BitVec 12)) (ps : List NormPart) : List NormPart :=
  (upto 4096).filterMap (fun c =>
    if members.contains (BitVec.ofNat 12 c) then ps.find? (fun q => q.chip.toNat == c) else none)

/-- The exchange is complete: OK_FROZEN, OK_STEP_SKIPPED, or rho and phase 3 (R374, R376, R377, R379). -/
def State.prExchanged (s : State) (p : PruneCmd) (o : Op) (ps : List NormPart) : State :=
  let s := (upto 8).foldl (fun s n => s.count (blkHbm n) 0x25 1) s
  let old := s
  let p := { p with seen := p.seen || ps.any (fun q => q.poisoned) }
  if pgFrozen o.pgroup then s.prSkipped p o stOkFrozen 0x21 0
  else if ps.any (fun q => q.nonfinite) then s.prSkipped p o stOkSkipped 0x22 1
  else
    let sum (f : NormPart → W64) : Nat := match ps with
      | [] => 0
      | q :: t => t.foldl (fun a q => fp64.addW a (f q).toNat) (f q).toNat
    let rho := prRho o.pgroup (prConst o.desc o.pgroup).lr (sum (fun q => q.w)) (sum (fun q => q.u))
    State.prOffer old (s.prGo { p with phase := .apply, done := freshShares o.desc, rho := BitVec.ofNat 32 rho } o 4)

/-- The exchanges that waited for one of the 16 collectives to end begin (R337). -/
def State.exchangesGo (s : State) : State :=
  (s.pruneQ.filter (fun p => p.phase == .norm && p.done.all id)).foldl (fun (t : State) p =>
    match t.op? p.ctx p.idx with
    | some o => t.prGo p o 4
    | none => t) s

def State.prune? (s : State) (c : Nat) (idx : W32) : Option PruneCmd := s.pruneQ.find? (fun p => p.ctx == c && p.idx == idx)

/-- The exchange delivers every other member's partials (R373, R374). -/
def execNormExchangeDone (c : Fin 64) (idx : W32) (parts : List NormPart) (s : State) : Done :=
  .next (match s.prune? c idx, s.op? c idx with
    | some p, some o =>
      if p.phase = .exchange ∧ s.mayFinish o then
        match s.collSet (pSet o.desc) with
        | some e =>
          let ps := sortParts e.members (p.own s.group.self :: parts)
          if ps.length = e.members.length then (s.prExchanged p o ps).exchangesGo else s
        | none => s
      else s
    | _, _ => s)

/-! ### Issue (R219, R221, R366, R380 to R382) -/

/-- What a PRUNE_UPDATE accesses: a frozen group reads only, and under rules 1 and 2 only its gradient (R220, R376); a digest
reads the parameters. -/
def prAccess (d : Block) (frozen : Bool) : List (Nat × Nat × Nat × Nat) :=
  let n := 4 * pCount d
  let g := (22, pmRead, pGrad d, pGradSize d * pCount d)
  let v (p : Nat) : List (Nat × Nat × Nat × Nat) := if pRule d = 1 then [] else [(34, p, pV d, n)]
  if frozen then
    (if pRule d = 3 then [(16, pmRead, pParam d, n), g, (28, pmRead, pM d, n)] ++ v pmRead
     else (if dDigest d then [(16, pmRead, pParam d, n)] else []) ++ [g])
  else [(16, pmRead, pParam d, n), (16, pmWrite, pParam d, n), g, (28, pmRead, pM d, n), (28, pmWrite, pM d, n)]
    ++ v pmRead ++ v pmWrite

/-- Overlaps among ranges of different fields, reported at the later field. -/
def overlaps (l : List (Nat × Nat × Nat × Nat)) : List (Bool × Nat) :=
  l.flatMap (fun a => l.map (fun b => (decide (a.1 < b.1) && rngMeet (a.2.2.1, a.2.2.2) (b.2.2.1, b.2.2.2), b.1)))

/-- Whether the queue takes a command. -/
def State.queueFull (s : State) : Bool := decide (s.pruneQ.length ≥ 32)

/-- PRUNE_UPDATE at issue (R366). -/
def checkPrune (s : State) (x : Context) (o : Op) : Verdict :=
  let d := o.desc
  let g := s.pgroup (pGroupNo d)
  let acc := prAccess d (pgFrozen g)
  firstFail
    [if pRule d = 3 ∧ lacks x 3 then some (.fail stNotPermitted 49) else none,
     lowest stBadFormat [(decide (pRule d < 1 ∨ 3 < pRule d), 49), (!(pFmt d == 7 || pFmt d == 5), 50)],
     lowest stBadShape
       ([(pStep d == 0, 52), (pParam d % 4 != 0, 16), (pGrad d % pGradSize d != 0, 22), (pM d % 4 != 0, 28),
         (pRule d != 1 && pV d % 4 != 0, 34)] ++ overlaps acc),
     s.regions x (acc.map (fun r => r.2)),
     if s.queueFull then some (.wait .prunerQueue) else none]
    (.go { o with
           pgroup := g
           d1 := BitVec.ofNat 16 (pGroupNo d)
           outs := writesOf (acc.map (fun r => r.2)) })

/-- A command as it enters the queue. -/
def newPrune (o : Op) (ph : PrPhase) : PruneCmd :=
  { ctx := o.ctx, idx := o.idx, phase := ph, done := freshShares o.desc, wPart := List.replicate 8 0
    uPart := List.replicate 8 0, amax := List.replicate 8 0, poison := false, seen := false, nonfin := false
    count := 0, extra := 0, rho := 0, at_ := 0 }

/-- A command enters the queue. -/
def State.enqueue (s : State) (o : Op) (ph : PrPhase) : State :=
  let p := newPrune o ph
  State.prOffer s (({ s with pruneQ := s.pruneQ ++ [p] }).prGo p o 4)

/-- A PRUNE_UPDATE starts: GROUP_ABSENT without its set (R366), else its first phase (R372, R376, R377). -/
def startPrune (s : State) (o : Op) : State :=
  let d := o.desc
  let set := (s.collSet (pSet d)).filter (fun e => !e.refused && e.members.contains s.group.self)
  if pRule d = 3 ∧ (set.isNone ∨ !s.group.formed) then s.finish (o.raise stGroupAbsent)
  else s.enqueue o
    (if pRule d = 3 then .norm else if pgFrozen o.pgroup then .frozen else if pgSkip o.pgroup then .scan else .update)

def issuePrune (s : State) (c : Nat) : State := s.issue c 0x38 checkPrune startPrune

/-- PRUNE_UPDATE enters the Pruner queue (R364, R366). -/
def execPruneUpdate (c : Fin 64) (s : State) : Done := .next (issuePrune s c)

/-- Whether a Pruner's sweep function is shutting down (R384, R462). -/
def State.sweepClosing (s : State) : Bool :=
  s.pwr.shutting.any (fun f => match f with
    | .prunerSweep _ => true
    | _ => false)

/-- SWEEP at issue (R218, R380 to R382, R608). -/
def checkSweep (s : State) (x : Context) (o : Op) : Verdict :=
  let d := o.desc
  let n := wSize d * wCount d
  let sz := wSize d
  let res := !wWrites d
  let xr := (wX d, n)
  let yr := (wY d, n)
  let zr := (wZ d, n)
  let acc := [(pmRead, wX d, n), (pmRead, wY d, n)] ++ (if res then [] else [(pmWrite, wY d, n)])
    ++ (if wUseZ d then [(pmRead, wZ d, n)] else []) ++ [(pmRead, wCoef d, 64)] ++ (if res then [(pmWrite, wResult d, 32)] else [])
  let coefBad := s.poisonAt (wCoef d) 64
  firstFail
    [lowest stBadFormat
       [(decide (wOp d < 1 ∨ 4 < wOp d), 39), (!(wFmt d == 7 || wFmt d == 9), 40), (decide (wPred d > 5), 41)],
     lowest stBadShape
       [(wX d % sz != 0, 16), (wY d % sz != 0, 22), (wUseZ d && wZ d % sz != 0, 28),
        (rngMeet xr yr && wX d != wY d, 22), (wUseZ d && rngMeet yr zr && wY d != wZ d, 28),
        (wUseZ d && rngMeet xr zr, 28),
        (wCoef d % 64 != 0, 48), (res && wResult d % 8 != 0, 56)],
     s.regions x acc,
     if coefBad.isEmpty then none else some (.poisoned 48 coefBad),
     if s.queueFull || s.sweepClosing then some (.wait .prunerQueue) else none]
    (.go { o with ext := blockOf (s.mem.read (wCoef d) 64), outs := writesOf acc })

def startSweep (s : State) (o : Op) : State := s.enqueue o .sweep

def issueSweep (s : State) (c : Nat) : State := s.issue c 0x39 checkSweep startSweep

/-- SWEEP enters the Pruner queue (R364, R380); while the sweep function shuts down, it is held as an enable (R384, R462). -/
def execSweep (c : Fin 64) (s : State) : Done :=
  let t := issueSweep s c
  let held := s.sweepClosing && (match t.ctx c with
    | some x => x.issueWait == some .prunerQueue
    | none => false)
  .next (if held then
      t.pwr.shutting.foldl (fun (u : State) f => match f with
        | .prunerSweep _ => u.holdEnable f
        | _ => u) t
    else t)

/-! ### Commands that end early, timeouts -/

/-- What a Pruner command that ends early leaves open: of a phase that writes, the elements of the shares that are not finished; a record
that is not written yet (R229, R385). -/
def PruneCmd.unwritten (p : PruneCmd) (d : Block) : List (Nat × Nat) :=
  let of (sz base : Nat) : List (Nat × Nat) :=
    ((upto 8).filter (fun n => !unitAt true p.done n)).flatMap (fun n => (prRuns d n).map (fun r => (base + sz * r.1, sz * r.2)))
  match p.phase with
  | .update => of 4 (pParam d) ++ of 4 (pM d) ++ (if pRule d = 1 then [] else of 4 (pV d))
  | .apply => of 4 (pParam d) ++ of 4 (pM d) ++ of 4 (pV d)
  | .sweep => if wWrites d then of (wSize d) (wY d) else [(wResult d, 32)]
  | _ => []

/-- A Pruner command ends with a code, its results partial (R229, R232, R501). -/
def State.prEnd (s : State) (p : PruneCmd) (st : Byte) : State :=
  match s.op? p.ctx p.idx with
  | some o =>
    let o := { s.soFar o with outs := p.unwritten o.desc }
    State.prOffer s (((s.dropPrune p).endOp o st).settle p.ctx)
  | none => s.dropPrune p

/-- Whether a share of a Pruner is still to run: of the phase it is in, or of the phase after its scan or its norm (R385). -/
def PruneCmd.dueAt (p : PruneCmd) (d : Block) (n : Nat) : Bool :=
  !unitAt true p.done n || ((p.phase == .scan || p.phase == .norm || p.phase == .exchange) && prShare d n != 0)

/-- An exchange of a command ends as a collective does (R375). -/
def State.exchangeEnd (s : State) (p : PruneCmd) (st : Byte) : State :=
  match s.op? p.ctx p.idx with
  | some o => (s.prFail p o st).exchangesGo
  | none => s.dropPrune p

/-- An exchange loses a peer (R358, R375): ABORT goes on at every ring port of its set but one, under the LAYER_ID that tells the exchanges
of a set apart (R373; log entry 40), and the command completes with PEER_LOST. -/
def State.exchangeLost (s : State) (p : PruneCmd) (but : Nat) : State :=
  match s.op? p.ctx p.idx with
  | some o =>
    let s := match s.collSet (pSet o.desc) with
      | some e => s.sendAborts (newColl p.ctx p.idx (pSet o.desc) (BitVec.ofNat 32 (dLayer o.desc).toNat)) e but
      | none => s
    s.exchangeEnd p stPeerLost
  | none => s.dropPrune p

/-- A collective message, among them an ABORT of an exchange in progress (R358, R375). While the link adders are paused segments wait (R360);
an ABORT acts at once. -/
def State.collArrive (s : State) (n : Nat) (m : Msg) : State :=
  let h := headOf m
  let hit (p : PruneCmd) : Bool := p.phase == .exchange && (match s.op? p.ctx p.idx with
    | some o => pSet o.desc == h.set && (dLayer o.desc).toNat == h.tag.toNat
    | none => false)
  if h.has cfAbort then
    match s.coll? h.set h.tag, s.pruneQ.find? hit with
    | none, some p => (s.freeBuffers n m).exchangeLost p n
    | _, _ => (s.collIn n m).exchangesGo
  else if 4 ≤ s.pwr.shed then { s with adderQ := s.adderQ ++ [(n, m)] }
  else (s.collIn n m).exchangesGo

/-- A collective's timeout expires (R357, R358): it completes with COLLECTIVE_TIMEOUT; so does a trust-ratio exchange, whose
timeout is 50 ms (R373, R375). -/
def execCollectiveTimeout (c : Fin 64) (idx : W32) (s : State) : Done :=
  .next (if s.frost.phase = .running ∨ s.frost.phase = .cutting then
      match s.colls.find? (fun q => q.ctx == c.val && q.idx == idx) with
      | some q => if q.deadline ≤ s.nowN then (s.collEnd q stCollTimeout).exchangesGo else s
      | none =>
        match s.prune? c idx with
        | some p => if p.phase = .exchange ∧ p.at_ + 50000000 ≤ s.nowN then s.exchangeEnd p stCollTimeout else s
        | none => s
    else s)

end Sys2Proof.Machine
end

