-- ==== Sys2Proof/Machine/Rake.lean ====
section
/-! DEFINITION. The Rake (R218, R549 to R555): its check codes, streams, folds, the three modes. -/

namespace Sys2Proof.Machine

open Sys2Proof

/-! ### Fields (R218) -/

def rSrc (d : Block) : Nat := fld d 16 6
def rDst (d : Block) : Nat := fld d 22 6
def rState (d : Block) : Nat := fld d 28 6
def rLen (d : Block) : Nat := fld d 34 5
def rMode (d : Block) : Nat := fld d 40 1
def rPoly (d : Block) : Nat := fld d 41 1
def rFold (d : Block) : Nat := fld d 42 1
def rSeq (d : Block) : Nat := fld d 44 4
def rLoad (d : Block) : Bool := fldBit d 48 0
def rSave (d : Block) : Bool := fldBit d 48 1
def rSize (d : Block) : Nat := if rPoly d = 1 then 8 else 4

/-! ### Check codes (R549) -/

/-- One byte into the CRC-64/ECMA-182 register: bits shifted out at the top. -/
def crc64Bits : Nat → Nat → Nat
  | 0, r => r
  | k + 1, r =>
    crc64Bits k (if r / 2 ^ 63 % 2 = 1 then (2 * r % 2 ^ 64) ^^^ 0x42F0_E1EB_A9EA_3693 else 2 * r % 2 ^ 64)

def crc64Byte (r b : Nat) : Nat := crc64Bits 8 (r ^^^ (b * 2 ^ 56))

/-- One byte into a stream's register. -/
def checkByte (poly r b : Nat) : Nat := if poly = 1 then crc64Byte r b else crcByte 0x82F6_3B78 8 (r ^^^ b)

/-- The initial value and the final XOR. -/
def checkInit (poly : Nat) : Nat := if poly = 1 then 0 else 0xFFFF_FFFF
def checkFinal (poly r : Nat) : Nat := if poly = 1 then r else r ^^^ 0xFFFF_FFFF

/-! ### Streams (R550, R552) -/

/-- A stream: register, bytes processed, next fold sequence value, poisoned granules met. -/
structure RakeStream where
  reg  : Nat
  pos  : Nat
  seq  : Nat
  bad  : Nat
deriving DecidableEq, Repr

/-- Feed the fold word of the chunk that holds stream byte `at_` (R550). `base` is the address that stream byte 0 would have:
a chunk begun in an earlier command takes the address its first byte has when the ranges lie end to end (log entry 21). -/
def foldChunk (d : Block) (base : Int) (at_ : Nat) (t : RakeStream) : RakeStream :=
  let feed (v : Nat) : Nat := (bytesOf 8 v).foldl (fun r b => checkByte (rPoly d) r b.toNat) t.reg
  if rFold d = 1 then { t with reg := feed (wrapTo 48 (base + (at_ / 4096 * 4096 : Nat))) }
  else if rFold d = 2 then { t with reg := feed t.seq, seq := (t.seq + 1) % 2 ^ 32 }
  else t

/-- Feed one byte, and a fold after the last byte of a chunk. -/
def feedByte (d : Block) (base : Int) (t : RakeStream) (b : Byte) : RakeStream :=
  let u := { t with reg := checkByte (rPoly d) t.reg b.toNat, pos := t.pos + 1 }
  if u.pos % 4096 = 0 then foldChunk d base t.pos u else u

/-- The check value: a fold of the partial last chunk, the final XOR. -/
def checkValue (d : Block) (base : Int) (t : RakeStream) : Nat :=
  let u := if t.pos % 4096 = 0 then t else foldChunk d base t.pos t
  checkFinal (rPoly d) u.reg

/-- A state block's bytes (R552), reserved bytes zero. -/
def rakeBlock (d : Block) (t : RakeStream) : List Byte :=
  bytesOf 8 t.reg ++ bytesOf 8 t.pos ++ bytesOf 4 t.seq ++ [BitVec.ofNat 8 (rPoly d), BitVec.ofNat 8 (rFold d), 0, 0]
  ++ bytesOf 4 (satAt (2 ^ 32 - 1) t.bad) ++ [0, 0, 0, 0]

/-- A stream read from a state block. -/
def rakeLoad (d : Block) (bs : List Byte) : RakeStream :=
  { reg := fieldAt bs 0 (if rPoly d = 1 then 8 else 4), pos := fieldAt bs 8 8, seq := fieldAt bs 16 4, bad := fieldAt bs 24 4 }

/-! ### Issue -/

/-- The ranges a RAKE accesses (R551, R552). -/
def rakeRanges (d : Block) : List (Nat × Nat × Nat) :=
  let same := rSrc d == rDst d
  [(pmRead, rSrc d, rLen d)]
  ++ (match rMode d with
      | 0 => [(pmWrite, rDst d, rSize d)]
      | 1 => [if same then (pmWrite, rDst d + rLen d, rSize d) else (pmWrite, rDst d, rLen d + rSize d)]
      | _ => if same then [] else [(pmWrite, rDst d, rLen d)])
  ++ (if rLoad d then [(pmRead, rState d, 32)] else []) ++ (if rSave d then [(pmWrite, rState d, 32)] else [])

/-- Bytes at DST for the overlap rule. -/
def rakeDst (d : Block) : Nat :=
  match rMode d with
  | 0 => rSize d
  | 1 => rLen d + rSize d
  | _ => rLen d

/-- RAKE at issue (R218, R219, R551, R552): on the Rake of the cluster the CSP chose, where it is in the set and up. -/
def checkRake (pick : Nat) (s : State) (x : Context) (o : Op) : Verdict :=
  let d := o.desc
  firstFail
    [lowest stBadFormat [(decide (2 < rMode d), 40), (decide (1 < rPoly d), 41), (decide (2 < rFold d), 42)],
     lowest stBadShape
       [(rngMeet (rSrc d, rLen d) (rDst d, rakeDst d) && rSrc d != rDst d, 22),
        ((rLoad d || rSave d) && rState d % 32 != 0, 28),
        (rMode d == 2 && decide (rLen d < rSize d), 34)],
     s.regions x (rakeRanges d)]
    (.go { o with
           cluster := if x.clusters.getLsbD pick && s.clusterUp pick then pick else o.cluster
           outs := writesOf (rakeRanges d) })

def issueRake (s : State) (c pick : Nat) : State := s.issue c 0x3C (checkRake pick) startNone

/-- RAKE is issued to a cluster's Rake (R551). -/
def execRake (c : Fin 64) (cluster : Fin 8) (s : State) : Done := .next (issueRake s c cluster)

/-! ### A RAKE's work (R551, R554) -/

/-- The stream's start: a new one, or the state block; or how the command fails (R552, R608). -/
def State.rakeStart (s : State) (via : Via) (d : Block) : (RakeStream ⊕ (Byte × Nat)) × State :=
  if !rLoad d then (.inl { reg := checkInit (rPoly d), pos := 0, seq := rSeq d, bad := 0 }, s)
  else
    let (l, s) := s.loadHome via (rState d) 32
    if !l.bad.isEmpty then (.inr (stPoison, 28), s)
    else if fieldAt l.bytes 20 1 ≠ rPoly d then (.inr (stBadFormat, 41), s)
    else if fieldAt l.bytes 21 1 ≠ rFold d then (.inr (stBadFormat, 42), s)
    else (.inl (rakeLoad d l.bytes), s)

/-- The events of CLUS_RAKE_STAT. -/
def State.rakeNote (s : State) (n bit : Nat) : State := s.modCluster n (fun k => { k with rakeEvent := setBits k.rakeEvent (2 ^ bit) })

/-- Write bytes as they are, the granules that hold a bad byte as poisoned: bytes moved unchanged keep what was read (R610). -/
def State.putAs (s : State) (v : Via) (a : Nat) (bs : List Byte) (bad : List Bool) : State :=
  s.storeHome v a bs (((bad.zipIdx).filter (fun e => e.1)).map (fun e => granule (a + e.2)))

/-- Read, check, copy and store (R551 to R554). A poisoned granule counts as zero bytes in the check (R554) and moves as it was read (R610). -/
def State.rakeRun (s : State) (o : Op) (t : RakeStream) : State :=
  let d := o.desc
  let strip := rMode d == 2
  let len := if strip then rLen d - rSize d else rLen d
  let via := Via.cluster o.cluster o.who
  let (l, s) := s.loadHome via (rSrc d) (rLen d)
  let s := s.perfAdd { o.who with core := none } 0x18 (rLen d)
  let bad (i : Nat) : Bool := l.bad.contains (granule (rSrc d + i))
  let data := (l.bytes.take len).zipIdx.map (fun e => if bad e.2 then (0 : Byte) else e.1)
  let base : Int := (if strip then rDst d else rSrc d : Nat) - (t.pos : Int)
  let t := data.foldl (feedByte d base) t
  let t := { t with bad := t.bad + ((granules (rSrc d) len).filter l.bad.contains).length }
  let v := checkValue d base t
  let got := fieldAt l.bytes len (rSize d)
  let gotBad := (granules (rSrc d + len) (rSize d)).any l.bad.contains
  let same := rSrc d == rDst d
  let copy (s : State) : State := if same then s else s.putAs via (rDst d) (l.bytes.take len) ((upto len).map bad)
  let wrong := strip && (gotBad || got != v)
  let s := match rMode d with
    | 0 => s.storeHome via (rDst d) (bytesOf (rSize d) v) []
    | 1 => (copy s).storeHome via (rDst d + len) (bytesOf (rSize d) v) []
    | _ => if wrong && !same then (copy s).putAs via (rDst d + len) (l.bytes.drop len) ((upto (rSize d)).map (fun i => bad (len + i)))
           else copy s
  let s := if rSave d then s.storeHome via (rState d) (rakeBlock d t) [] else s
  let s := if l.bad.isEmpty then s else s.rakeNote o.cluster 4
  let s := if wrong then s.rakeNote o.cluster 5 else s
  let o := if l.bad.isEmpty then o else o.flag rfPoison
  s.complete (if wrong then { o with d0 := BitVec.ofNat 32 v }.raise stCheckMismatch else o)

/-- The Rake finishes its range (R551 to R555); not while it is paused at shed stage 3. -/
def execRakeDone (c : Fin 64) (idx : W32) (s : State) : Done :=
  .next (match s.running? c idx (fun o => dOpcode o.desc == 0x3C && o.phase == .running) with
    | some o =>
      if s.rakePaused o.cluster || (s.cluster o.cluster).resetting then s
      else match s.rakeStart (.cluster o.cluster o.who) o.desc with
        | (.inl t, u) => s.poisonWatch (u.rakeRun o t)
        | (.inr (st, off), s) =>
          let o := { o with d0 := BitVec.ofNat 32 off }.raise st
          s.complete (if st = stPoison then o.flag rfPoison else o)
    | none => s)

end Sys2Proof.Machine
end

