-- ==== Sys2Proof/Machine/LinkDown.lean ====
section
/-! DEFINITION. A Runner link's state changes (R307, R315 to R318, R326 to R329) and what a link going down does to messages,
remote accesses, grants and collectives (R272, R326, R328, R358, R607). -/

namespace Sys2Proof.Machine

open Sys2Proof

/-! ### Messages that pass through (R323, R326) -/

/-- The message passing out on a port ends: control flits due go, then what waits. -/
def State.closeThrough (s : State) (p : Nat) : State :=
  ((s.modLink p (fun l => { l with through := none, holdT := none })).sendDue p).goOn p

/-- Send hold flits on a port, by number (R302). -/
def State.sendHolds (s : State) (p : Nat) : Nat → State
  | 0 => s
  | k + 1 => (s.sendFlit p (List.replicate 252 0) holdMark).sendHolds p k

/-- Hold flits that a port may send for a message it holds open: what its replay buffer has room for beside the rest of the message (at most
66 flits, R301, R306). -/
def Link.holdRoom (l : Link) : Nat := 958 - l.replay.length

/-- Flit slots of a link in a time in ns: 2.56 ns each at four lanes, 5.12 ns at two (R298). -/
def Link.slotsIn (l : Link) (t : Nat) : Nat := t * 100 / (if l.width2 then 512 else 256)

/-- A held message goes on: before its next flit stand the hold flits of the slots since its hold began (R326), as far as the replay
buffer had room for them (R306; log entry 42). -/
def State.endHold (s : State) (p : Nat) : State :=
  let l := s.link p
  match l.holdT with
  | none => s
  | some t =>
    let k := if l.state = .up then min (l.slotsIn (s.nowN - t) - 1) l.holdRoom else 0
    (s.sendHolds p k).modLink p (fun l => { l with holdT := none })

/-- Stomp the message passing out on a port: one data flit with its CRC marked, and the message ends (R326). -/
def State.stomp (s : State) (p : Nat) : State :=
  (((s.endHold p).sendFlit p (List.replicate 252 0) stompMark).count (blkLink p) 0x0A 1).closeThrough p

/-- The rest of a message being received is dropped. -/
def State.dropRx (s : State) (n : Nat) : State :=
  s.modLink n (fun l => { l with rx := l.rx.map (fun r => { r with mode := .drop }) })

/-- A port's incoming message stops coming: the port it passes out on holds it open with hold flits, the first now (R302, R326). -/
def State.holdThrough (s : State) (n : Nat) : State :=
  match (s.link n).rx with
  | some r =>
    match r.mode with
    | .through p =>
      if (s.link p).holdT.isSome then s
      else (s.sendHolds p (min 1 (s.link p).holdRoom)).modLink p (fun l => { l with holdT := some s.nowN })
    | _ => s
  | none => s

/-! ### Remote accesses on a lost link (R272, R607) -/

/-- Source bytes of a request that have not come. -/
def missing (o : Op) (r : ReadOut) : List Nat :=
  ((upto r.len).map (fun i => r.off + i)).filter (fun i =>
    decide (o.bytes.length ≤ i) && !o.parts.any (fun p => decide (p.1 ≤ i ∧ i < p.1 + p.2.length)))

/-- The reads a transfer has outstanding on a port return poison (R272, R185); further reads go on, or the transfer completes with
NO_ROUTE where no port is left for them (R229, R324). -/
def State.loseReads (s : State) (n : Nat) (o : Op) : State :=
  let gone := o.reads.filter (fun r => r.link == n)
  let o := gone.foldl (fun o r => (missing o r).foldl (fun o i => o.arrive i [0] [(i, i + 1)]) o) o
  let o := { o with reads := o.reads.filter (fun r => r.link != n) }
  let (o, s) := s.fillDma o
  if o.asked < (dmaSrc o).bytes then
    (if (s.route (sideChip o 0)).isNone then (s.releaseGrants o).complete (o.raise stNoRoute) else s.askReads o)
  else s

/-- A transfer whose grant round trip failed completes with a status; a grant it holds is released, and the request withdrawn
after a PEER_LOST (R607). -/
def State.grantFail (s : State) (o : Op) (st : Byte) : State :=
  let s := s.releaseGrants o
  let s := match o.phase, s.ctx o.ctx with
    | .grantWait _ tag _, some x =>
      if st = stPeerLost then
        s.sendMsg (s.mkMsg opGrantRelease (sideChip o (((s.remoteSides o).find? (fun w => !o.hasGrant w)).getD 0)) x.jobId 0 tag 0 0 [])
      else s
    | _, _ => s
  s.complete (o.raise st)

/-- What a link's loss does to an operation: the grants of the lost peer are over. -/
def State.loseOp (s : State) (n : Nat) (o : Op) : State :=
  if dOpcode o.desc ≠ 0x20 then s
  else
    let o := { o with rgrants := o.rgrants.map (fun g => { g with lost := g.lost || g.chip == (s.link n).peerChip }) }
    let s := s.putOp o
    match o.phase with
    | .grantWait k _ _ => if k = n then s.grantFail o stPeerLost else s
    | _ => if o.reads.any (fun r => r.link == n) then s.loseReads n o else s

/-- WRITEs of other chips in flight on a link: queued, held for replay, passing through. -/
def State.forwardedOn (s : State) (n : Nat) : Nat :=
  let l := s.link n
  let other (m : Msg) : Bool := m.op == opWrite && m.src != s.group.self
  (l.sendQ.filter other).length + l.fwdWrites.length + (match l.through with
    | some k => bnat (((s.link k).rx.map (fun r => other r.msg)).getD false)
    | none => 0)

/-- Remote accesses on a lost link, `k` WRITEs of other chips among them: writes dropped and counted, reads and grants (R272). -/
def State.loseRemote (s : State) (n k : Nat) : State :=
  let k := k + (s.posted.filter (fun p => p.link == n && !p.lost)).length
  let s : State := { s with posted := s.posted.map (fun (p : Posted) => if p.link = n then { p with lost := true } else p) }
  let s := s.count (blkLink n) 0x08 k
  let s := s.ops.foldl (fun (t : State) (o : Op) =>
    match t.op? o.ctx o.idx with
    | some o => t.loseOp n o
    | none => t) s
  let s := s.resumeReads
  let peer := (s.link n).peerChip
  { s with ctxs := s.ctxs.map (fun (x : Option Context) => x.map (fun (x : Context) => { x with grants := x.grants.filter (fun g => g.chip != peer) })) }

/-- Collectives and trust-ratio exchanges of sets whose rings use a port end with PEER_LOST (R358, R375). -/
def State.loseColls (s : State) (n : Nat) : State :=
  let uses (id : Nat) : Bool := match s.collSet id with
    | some e => e.ports.contains n
    | none => false
  let s := (s.colls.filter (fun c => uses c.setId)).foldl (fun s c => s.collLost c n) s
  ((s.pruneQ.filter (fun p => p.phase == .exchange)).foldl (fun s p =>
    match s.op? p.ctx p.idx with
    | some o => if uses (pSet o.desc) then s.exchangeLost p n else s
    | none => s) s).exchangesGo

/-! ### States of a link -/

/-- A link goes to a held state with a cause (R328): what passes through it is stomped, its messages, replay buffer, credits
and authentication are gone, and what depended on it ends. -/
def State.linkDown (s : State) (n : Nat) (st : LinkState) (cause : Nat) : State :=
  let l := s.link n
  let writes := s.forwardedOn n
  let s := match l.rx with
    | some r =>
      match r.mode with
      | .through p => s.stomp p
      | _ => s
    | none => s
  let s := match l.through with
    | some k => s.dropRx k
    | none => s
  let s := s.modLink n (fun l =>
    { l with
      state := st
      cause := cause
      event := setBits (setBits l.event 1) (if cause = dcPeerReset then 2 else if st = .refused then 4 else 0)
      replay := []
      sendQ := []
      groupHeld := []
      rx := none
      through := none
      ctlDue := none
      evDue := []
      holdT := none
      bufVc := List.replicate 8 0
      bufSh := List.replicate 8 0
      again := 0
      fwdWrites := []
      noProg := 0
      admitted := false
      authOk := false
      nonce := none
      verdict := none
      downT := s.nowN })
  let s : State := { s with fw := { s.fw with attQ := s.fw.attQ.filter (fun e => e.1 != n) } }
  let s := s.count (blkLink n) 0x07 1
  let s := s.logEntry srcDmp sevWarn 0x4010 [n, cause, (s.link n).peerChip.toNat, (s.link n).stat]
  (s.loseRemote n writes).loseColls n

/-- Whether a link is in a state that a loss takes DOWN: it has left DETECT and is not held. -/
def LinkState.live : LinkState → Bool
  | .train => true
  | .align => true
  | .negotiate => true
  | .up => true
  | .retrain => true
  | .keepalive => true
  | _ => false

/-- A link begins its start-up (R315). -/
def State.linkDetect (s : State) (n : Nat) : State :=
  s.modLink n (fun l => { l with state := .detect, width2 := false })

/-- A link enters NEGOTIATE: sequence numbers and credits from 0 (R299, R308, R315). -/
def Link.negotiate (l : Link) : Link :=
  { l with
    state := .negotiate
    txSeq := 0
    rxSeq := 0
    ackedSeq := 0
    replay := []
    noProg := 0
    nakSent := false
    crShared := 0
    crVc := List.replicate 8 0
    usedSh := 0
    usedVc := List.replicate 8 0
    freedSh := 0
    freedVc := List.replicate 8 0
    bufVc := List.replicate 8 0
    bufSh := List.replicate 8 0
    again := 0
    resent := false
    fwdWrites := []
    slot := 0
    rx := none
    sinceAck := 0
    frameNum := 0
    writeTags := []
    markSeen := none }

/-- A link enters RETRAIN, keeping sequence numbers, replay buffer, credits and messages (R307). -/
def State.retrain (s : State) (n : Nat) : State :=
  let s := s.holdThrough n
  (s.modLink n (fun l => { l with state := .retrain, noProg := 0 })).count (blkLink n) 0x06 1

/-- The pair of lanes a link uses when some have failed (R316): none when each pair holds a failed lane. -/
def lanePair (good : BitVec 4) : Option (BitVec 4) :=
  if good = 0xF then some 0xF else if good &&& 3 = 3 then some 3 else if good &&& 12 = 12 then some 12 else none

/-- A message's data flits (R301). -/
def dataFlits (len : Nat) : Nat := if len ≤ 164 then 0 else (len - 164 + 251) / 252

/-! ### Messages that must go to every link -/

/-- Send RESET_NOTICE frames on every link that is UP or in KEEPALIVE (R329). -/
def State.resetNotices (s : State) : State :=
  (upto 24).foldl (fun s n =>
    if (s.link n).state = .up ∨ (s.link n).state = .keepalive then s.sendFrames n 0xC3 16 else s) s

/-! ### Link events of the training sequence -/

/-- The peer's signal is detected: TRAIN begins (R315). -/
def execSignalDetected (n : Fin 24) (s : State) : Done :=
  .next (if (s.link n).state = .detect then s.modLink n (fun l => { l with state := .train }) else s)

/-- Equalisation has ended on some lanes (R315, R316): ALIGN on four or two, or DOWN with TRAIN_FAIL. -/
def execTrainDone (n : Fin 24) (lanes : BitVec 4) (s : State) : Done :=
  .next (if (s.link n).state ≠ .train then s
    else match lanePair lanes with
      | none => (s.modLink n (fun l => { l with lanesGood := lanes })).linkDown n .down dcTrainFail
      | some use =>
        if use ≠ 0xF ∧ !s.allowX2 n then
          (s.modLink n (fun l => { l with lanesGood := lanes })).linkDown n .down dcTrainFail
        else s.modLink n (fun l => { l with state := .align, lanesGood := lanes, width2 := use != 0xF }))

/-- The first 16 bytes of the digest of the group configuration, 0 without one (R318, R387). -/
def State.cfgDigest16 (s : State) : Nat := match s.group.cfg with
  | some g => g.digest.toNat % 2 ^ 128
  | none => 0

/-- The IDENT event of this end (R318): Belaeri 1.0, and the firmware interface major. -/
def State.ident (s : State) (n : Nat) : LinkEvent :=
  mkEvent 0x04 ([0] ++ bytesOf 2 s.group.self.toNat ++ [BitVec.ofNat 8 n, 1, 0, BitVec.ofNat 8 s.fw.ifMajor] ++ bytesOf 8 s.sec.serial.toNat
    ++ bytesOf 16 s.cfgDigest16 ++ [BitVec.ofNat 8 (if (s.link n).width2 then 2 else 4)])

/-- Lane alignment completes: NEGOTIATE, and this end's IDENT goes out (R315, R318). -/
def execAlignDone (n : Fin 24) (s : State) : Done :=
  .next (if (s.link n).state = .align then (s.modLink n Link.negotiate).sendControl n false [s.ident n] else s)

/-- A lane fails while the link is UP: RETRAIN, and DOWN where two lanes are not allowed (R317). -/
def execLaneFail (n : Fin 24) (lane : Fin 4) (s : State) : Done :=
  .next (if (s.link n).state = .up ∨ (s.link n).state = .keepalive then
      let s := (s.modLink n (fun l => { l with lanesGood := l.lanesGood &&& ~~~(1#4 <<< lane.val) })).retrain n
      if s.allowX2 n then s else s.linkDown n .down dcRetrainFail
    else s)

/-- RETRAIN ends (R307, R317): a replay from ACK_SEQ on four lanes or two, or DOWN with RETRAIN_FAIL; a lane that failed before is not used
again. At an end that is UP, the peer has retrained: both ends run RETRAIN, so this end has entered it too. -/
def execRetrainDone (n : Fin 24) (lanes : BitVec 4) (s : State) : Done :=
  .next (if (s.link n).state ≠ .retrain ∧ (s.link n).state ≠ .up then s
    else
      let s := if (s.link n).state = .up then s.retrain n else s
      let lanes := lanes &&& (s.link n).lanesGood
      let s := s.modLink n (fun l => { l with lanesGood := lanes, frameNum := 0, slot := 0 })
      match lanePair lanes with
      | none => s.linkDown n .down dcRetrainFail
      | some use =>
        if use ≠ 0xF ∧ !s.allowX2 n then s.linkDown n .down dcRetrainFail
        else
          let wide := !(s.link n).width2
          let s := s.modLink n (fun l => { l with state := .up, width2 := l.width2 || use != 0xF })
          let s := s.linkEvent n evRetrained
          let s := if use ≠ 0xF ∧ wide then s.linkEvent n evWidthDown else s
          (s.replayLink n).pump n)

/-- A peer's signal is lost without notice: DOWN with cause LOS (R329). -/
def execLossOfSignal (n : Fin 24) (s : State) : Done :=
  .next (if (s.link n).state.live then s.linkDown n .down dcLos else s)

/-- Link states in which frames come (R298): the peer may be UP while this end is still in ALIGN or NEGOTIATE. -/
def LinkState.framed : LinkState → Bool
  | .align => true
  | .negotiate => true
  | .up => true
  | .retrain => true
  | .keepalive => true
  | _ => false

/-- Two RESET_NOTICE frames: DOWN with cause PEER_RESET (R329). The report to the group manager is in Group. -/
def State.peerReset (s : State) (n : Nat) : State := if (s.link n).state.framed then s.linkDown n .down dcPeerReset else s

/-- An enabled link that is DOWN starts again after 1 ms (R328). -/
def execLinkDownRestart (n : Fin 24) (s : State) : Done :=
  .next (if (s.link n).state = .down ∧ s.linkOn n ∧ unitAt true s.runref (n.val / 12) = true ∧ (s.link n).downT + 1000000 ≤ s.nowN then s.linkDetect n else s)

/-- A hold of 5 ms ends the message that passes out on a port (R326). -/
def execForwardHoldTimeout (n : Fin 24) (s : State) : Done :=
  .next (match (s.link n).through, (s.link n).holdT with
    | some k, some t => if t + 5000000 ≤ s.nowN then (s.dropRx k).stomp n else s
    | _, _ => s)

/-- ACK_SEQ has not advanced for 4 us while flits are held: replay, and after 16 replays RETRAIN (R306, R307). A link that is not UP yet
goes on replaying: R307 names no state to come back to (DESIGN CHOICE, log entry 63). -/
def State.replayOrRetrain (s : State) (n : Nat) : State :=
  let s := (s.replayLink n).modLink n (fun l => { l with ackProgT := s.nowN })
  if (s.link n).noProg ≥ 16 ∧ (s.link n).state = .up then s.retrain n else s

def execReplayTimeout (n : Fin 24) (s : State) : Done :=
  .next (if ((s.link n).state = .up ∨ (s.link n).state = .negotiate) ∧ !(s.link n).replay.isEmpty ∧ (s.link n).ackProgT + 4000 ≤ s.nowN
    then s.replayOrRetrain n else s)

/-- A receiver that has accepted flits acknowledges at least once every 1 us (R305). -/
def execAckTimer (n : Fin 24) (s : State) : Done :=
  .next (if (s.link n).state = .up ∧ (s.link n).sinceAck > 0 ∧ (s.link n).lastAckT + 1000 ≤ s.nowN then s.sendControl n false [] else s)

end Sys2Proof.Machine
end

