-- ==== Sys2Proof/Machine/Remote.lean ====
section
/-! DEFINITION. The remote-access engines (R269 to R272, R284, R285, R291 to R293, R310 to R313, R324, R607): what a home does
with requests, and what a sender does with answers. -/

namespace Sys2Proof.Machine

open Sys2Proof

/-! ### At the home -/

/-- The context with a group job id (R269). -/
def State.jobCtx (s : State) (job : W16) : Option (Nat × Context) :=
  (upto 64).findSome? (fun c =>
    match s.ctx c with
    | some x => if x.jobId = job ∧ (x.status = .active ∨ x.status = .frozen) then some (c, x) else none
    | none => none)

/-- The end of the range that contexts reach in which an address lies (R234, R264). -/
def ctxRangeEnd (a : Nat) : Option Nat :=
  if a < hbmCtxEnd then some hbmCtxEnd
  else match clusterOf a, coreOf a with
    | some (c, _), _ => some (clusterMemBase + (c + 1) * 0x100_0000)
    | _, some (k, o) => if o < 0x20_0000 then some (storeAddr k 0x20_0000) else none
    | _, _ => none

/-- The first address of a range that no context reaches, by fuel: in the firmware reserve, an accumulator range, the register window, or no
memory (R271). -/
def ctxHole : Nat → Nat → Nat → Option Nat
  | 0, _, _ => none
  | k + 1, a, z =>
    if z ≤ a then none
    else match ctxRangeEnd a with
      | some e => ctxHole k e z
      | none => some a

/-- Where a remote range fails its check, if it does (R269, R271): `ps` are the permissions it needs. Ranges that adjoin may be
crossed, cluster memories among them (8 of them at most follow one another). -/
def State.remoteFault (s : State) (job : W16) (ps : List Nat) (a n : Nat) : Option Nat :=
  match s.jobCtx job with
  | none => some a
  | some (_, x) =>
    match ps.filterMap (fun p => s.regionFault x p a n) with
    | f :: _ => some f
    | [] => ctxHole 12 a (a + n)

/-- A grant id that no grant at this home has. -/
def State.newGrantId (s : State) : W32 :=
  let used := s.ctxs.flatMap (fun (x : Option Context) => match x with
    | some x => x.grants.map (fun g => g.id)
    | none => [])
  BitVec.ofNat 32 (((upto (used.length + 1)).find? (fun i => !used.contains (BitVec.ofNat 32 (i + 1)))).getD 0 + 1)

/-- A grant of the sender for a range, in the context of its job id. -/
def State.grantFor (s : State) (m : Msg) (write : Bool) (a n : Nat) : Option HomeGrant :=
  match s.jobCtx m.job with
  | none => none
  | some (_, x) => x.grants.find? (fun g => g.chip == m.src && g.write == write && decide (g.base ≤ a ∧ a + n ≤ g.base + g.len))

/-- GRANT_REQ: checked against the home context's regions and answered (R269, R270). -/
def State.inGrantReq (s : State) (m : Msg) : State :=
  let a := m.addr.toNat
  let len := fieldAt m.data 0 8
  let want := fieldAt m.data 8 1
  let ps := (if bitOf want 0 then [pmRemoteRead] else []) ++ (if bitOf want 1 then [pmRemoteWrite] else [])
  match s.remoteFault m.job ps a len, s.jobCtx m.job with
  | none, some (c, _) =>
    let g : HomeGrant := { id := s.newGrantId, chip := m.src, tag := m.tag, base := a, len := len, write := bitOf want 1 }
    (s.modCtx c (fun x => { x with grants := x.grants ++ [g] })).sendMsg
      (s.mkMsg opGrantResp m.src m.job 0 m.tag g.id.toNat 0 [])
  | f, _ => s.sendMsg (s.mkMsg opGrantResp m.src m.job 0 m.tag 0 0 (bytesOf 6 (f.getD a)))

/-- GRANT_RELEASE: by id, or by the TAG of its request with OPWORD 0 (R607). -/
def State.inGrantRelease (s : State) (m : Msg) : State :=
  let hit (g : HomeGrant) : Bool := g.chip == m.src && (if m.opword = 0 then g.tag == m.tag else g.id == m.opword)
  { s with ctxs := s.ctxs.map (fun (x : Option Context) => x.map (fun (x : Context) =>
      { x with grants := x.grants.filter (fun g => !hit g) })) }

/-- The granules of a message's data that its POISON bitmap marks. -/
def msgBad (m : Msg) : List Nat :=
  (granules m.addr.toNat m.data.length).filter (fun g => m.poison.getLsbD (g - m.addr.toNat / 32))

/-- WRITE: performed whole at its home under its grant, and acknowledged (R271, R291, R311, R312); not where its range has meanwhile met
the window of a retired core, which is unreachable (R28; log entry 22). -/
def State.inWrite (s : State) (m : Msg) : State :=
  let a := m.addr.toNat
  match s.jobCtx m.job with
  | none => s
  | some (_, x) =>
    if x.grants.any (fun g => g.id == m.opword && g.chip == m.src && g.write
        && decide (g.base ≤ a ∧ a + m.data.length ≤ g.base + g.len)) && (s.retiredHole a m.data.length).isNone then
      let t := s.poisonWatch (s.storeHome .fabric a m.data (msgBad m))
      t.sendMsg (t.mkMsg opWriteAck m.src m.job 0 m.tag 1 0 [])
    else s

/-- READ_REQ: served from the home under the requester's grant, with its poison marks (R271, R313). A range that has meanwhile met the window
of a retired core cannot be read (R28): zeros, every granule poisoned (DESIGN CHOICE, log entry 22). -/
def State.inReadReq (s : State) (m : Msg) : State :=
  let a := m.addr.toNat
  let n := m.opword.toNat
  if n = 0 ∨ 16384 < n ∨ (s.grantFor m false a n).isNone then s
  else
    let (l, s) : Loaded × State :=
      if (s.retiredHole a n).isSome then ({ bytes := List.replicate n 0, bad := granules a n }, s) else s.loadHome .fabric a n
    let bad := (upto n).map (fun i => l.bad.contains (granule (a + i)))
    let map : Block := (bad.zipIdx).foldl (fun b e => if e.1 then b ||| (1#512 <<< (e.2 / 32)) else b) 0
    s.sendMsg (s.mkMsg opReadResp m.src m.job 0 m.tag 0 map l.bytes)

/-- SIGNAL: checked and performed at its home, and answered (R270, R285). The answer carries the value before, a mark in
POISON for a poisoned word, OPWORD 1 and the faulting address for a failed check (log entry 22). -/
def State.inSignal (s : State) (m : Msg) : State :=
  let a := m.addr.toNat
  let answer (s : State) (ow : Nat) (bad : Bool) (d : List Byte) : State :=
    s.sendMsg (s.mkMsg opSignalAck m.src m.job 0 m.tag ow (if bad then 1 else 0) d)
  match s.remoteFault m.job [pmRemoteWrite] a 8 with
  | some f => answer s 1 false (bytesOf 6 f)
  | none =>
    let (old, bad, s) := s.signalWord .fabric a (fieldAt m.data 0 1 == 1) (fieldAt m.data 1 8)
    answer s 0 bad (bytesOf 8 old)

/-! ### At the sender -/

/-- WRITE_ACK: n consecutive tags ending at TAG are performed (R311); fences that waited may complete. -/
def State.inWriteAck (s : State) (m : Msg) : State :=
  let hit (p : Posted) : Bool := p.chip == m.src && !p.lost && decide ((m.tag - p.tag).toNat < m.opword.toNat)
  let cs := ((s.posted.filter hit).map (fun p => p.ctx)).eraseDups
  let s := { s with posted := s.posted.filter (fun p => !hit p) }
  cs.foldl (fun s c => s.settle c) s

/-- The operation of an opcode that awaits an answer with a tag: a transfer's read or a SIGNAL. A tag is of one message of this device at a
time. -/
def State.opAwaiting (s : State) (opc : Nat) (tag : W16) : Option Op :=
  s.ops.find? (fun o => dOpcode o.desc == opc && o.reads.any (fun r => r.tag == tag))

/-- READ_RESP: data and poison at its offset, and the reads that now have room on their port (R185, R271, R313). -/
def State.inReadResp (s : State) (m : Msg) : State :=
  match s.opAwaiting 0x20 m.tag with
  | none => s
  | some o =>
    match o.reads.find? (fun r => r.tag == m.tag), s.dmaHole o with
    | none, _ => s
    | some _, some a => if sideChip o 0 ≠ m.src then s else (s.faultDma o a).resumeReads
    | some r, none =>
      if sideChip o 0 ≠ m.src then s else
      let at_ := r.off + m.opword.toNat
      let sub := m.addr.toNat % 32
      let bad := ((upto ((m.data.length + 62) / 32)).filter (fun g => m.poison.getLsbD g)).map (fun g =>
        (at_ + (32 * g - sub), at_ + min m.data.length (32 * g + 32 - sub)))
      let left := r.left - m.data.length
      let o := o.arrive at_ m.data bad
      let o := { o with
        reads := if left = 0 then o.reads.filter (fun q => q.tag != r.tag)
                 else o.reads.map (fun q => if q.tag = r.tag then { q with left := left } else q) }
      let t := s
      t.poisonWatch ((s.countIn o m.data.length).fillDma o).2.resumeReads

/-- SIGNAL_ACK completes the global SIGNAL (R284, R285, R294). -/
def State.inSignalAck (s : State) (m : Msg) : State :=
  match s.opAwaiting 0x04 m.tag with
  | none => s
  | some o =>
    let v := fieldAt m.data 0 8
    if sideChip o 0 ≠ m.src then s
    else if m.opword ≠ 0 then
      s.complete ({ o with d0 := BitVec.ofNat 32 v, d1 := BitVec.ofNat 16 (fieldAt m.data 4 2) }.raise stRegionFault)
    else if m.poison ≠ 0 then s.complete (o.flag rfPoison)
    else s.complete { o with d0 := if fld o.desc 32 1 = 1 then BitVec.ofNat 32 v else 0 }

/-- The transfer whose grant request has a tag. -/
def State.opAsking (s : State) (tag : W16) : Option Op :=
  s.ops.find? (fun o => match o.phase with
    | .grantWait _ t _ => t == tag
    | _ => false)

/-- GRANT_RESP: the transfer goes on, or completes with REGION_FAULT; a late grant is released (R270, R607). -/
def State.inGrantResp (s : State) (m : Msg) : State :=
  match (s.opAsking m.tag).filter (fun o => sideChip o (((s.remoteSides o).find? (fun w => !o.hasGrant w)).getD 0) == m.src) with
  | some o =>
    if m.opword = 0 then
      s.grantFail { o with d0 := BitVec.ofNat 32 (fieldAt m.data 0 4), d1 := BitVec.ofNat 16 (fieldAt m.data 4 2) } stRegionFault
    else
      let w := ((s.remoteSides o).find? (fun w => !o.hasGrant w)).getD 0
      let g : HeldGrant := { lost := false, write := w == 1, link := (s.route m.src).getD 0, chip := m.src, id := m.opword }
      let o := { o with rgrants := o.rgrants ++ [g], phase := .running }
      (s.putOp o).goTransfer o
  | none => if m.opword = 0 then s else s.sendMsg (s.mkMsg opGrantRelease m.src m.job 0 0 m.opword.toNat 0 [])

/-- ROUTE_ERR: the dropped request's command completes with NO_ROUTE (R324, R607). -/
def State.inRouteErr (s : State) (m : Msg) : State :=
  let op := m.opword.toNat % 256
  let tag : W16 := BitVec.ofNat 16 (m.opword.toNat / 65536)
  if op = opGrantReq then
    (match s.opAsking tag with
     | some o => s.grantFail o stNoRoute
     | none => s)
  else if op = opReadReq then
    (match s.opAwaiting 0x20 tag with
     | some o => ((s.releaseGrants o).complete (o.raise stNoRoute)).resumeReads
     | none => s)
  else if op = opSignal then
    (match s.opAwaiting 0x04 tag with
     | some o => s.complete (o.raise stNoRoute)
     | none => s)
  else s

/-- No GRANT_RESP within 50 ms: PEER_LOST, and the request is withdrawn (R607); not while a Frost holds the device. -/
def execGrantTimeout (c : Fin 64) (idx : W32) (s : State) : Done :=
  .next (match s.op? c idx with
    | some o =>
      match o.phase with
      | .grantWait _ _ t =>
        if t + 50000000 ≤ s.nowN ∧ s.mayFinish o then s.grantFail o stPeerLost else s
      | _ => s
    | none => s)

/-! ### Forwarding (R323, R324) -/

/-- A request that this device cannot send on is dropped: counted at the port it came by, and its source told (R324). -/
def State.dropForward (s : State) (n : Nat) (m : Msg) (hops : Bool) : State :=
  let s := if hops then (s.linkEvent n evHopLimit).count (blkLink n) 0x0C 1 else (s.linkEvent n evMisroute).count (blkLink n) 0x0B 1
  if m.op = opReadReq ∨ m.op = opGrantReq ∨ m.op = opSignal then
    s.sendMsg (s.mkMsg opRouteErr m.src m.job 0 m.tag (m.op + m.tag.toNat * 65536) 0 [])
  else s

/-- A whole message for another chip goes on (R323). -/
def State.forward (s : State) (n : Nat) (m : Msg) : State :=
  if 8 ≤ m.hops then s.dropForward n m true
  else match s.route m.dst with
    | some p => (s.count (blkLink n) 0x09 1).sendOn p { m with hops := m.hops + 1 }
    | none => s.dropForward n m false

end Sys2Proof.Machine
end

