-- ==== Sys2Proof/Machine/Frost.lean ====
section
/-! DEFINITION. Frost (R509 to R516, R233, R320): its starts, the cut, the thaw, the FROST command. -/

namespace Sys2Proof.Machine

open Sys2Proof

def hdReg : Nat := 0
def hdCmd : Nat := 1
def hdPin : Nat := 2
def hdShed : Nat := 3
def hdGroup : Nat := 4

/-- The Frost id of the last Frost (FROST_ID, R510). -/
def FrostState.id (f : FrostState) : Nat := f.number.toNat + fieldVal (bnat f.group) 31

/-- FROST_MARK on every link that is UP (R320). -/
def State.frostMarks (s : State) : State :=
  (upto 24).foldl (fun s n =>
    if (s.link n).state = .up then
      s.sendControl n false [mkEvent 0x03 ([0, 0, 0] ++ bytesOf 4 s.frost.id ++ bytesOf 2 s.frost.origin.toNat)]
    else s) s

/-- Set a holder bit. -/
def FrostState.hold (f : FrostState) (b : Nat) : FrostState := { f with holders := f.holders ||| (1#5 <<< b) }

/-- A local Frost starts, or another local holder joins one (R509, R510, R513). -/
def State.frostStart (s : State) (b : Nat) : State :=
  let f := s.frost.hold b
  if f.phase = .running ∨ f.phase = .thawing then
    { s with frost :=
      { f with
        phase := .cutting
        settled := false
        group := false
        number := f.localCount + 1
        localCount := f.localCount + 1
        origin := s.group.self
        startT := s.nowN } }
  else { s with frost := f }

/-- A group Frost with a number reaches this device (R320, R405, R510, R515): its cut, or, where it is cut already, the mark is
passed on. -/
def State.frostGroup (s : State) (num : BitVec 31) (origin : BitVec 12) : State :=
  let f := { s.frost.hold hdGroup with group := true, number := num, groupCount := num, origin := origin }
  if f.phase = .running ∨ f.phase = .thawing then
    { s with frost := { f with phase := .cutting, settled := false, startT := s.nowN } }
  else if f.phase = .frozen then ({ s with frost := f }).frostMarks
  else { s with frost := f }

/-- Whether a group Frost number is new to this device. -/
def State.frostNew (s : State) (num : BitVec 31) : Bool := num != s.frost.groupCount

/-- The windows that do not run between the cut and the thaw move on by its length (R295, R361, R498, R607). -/
def State.shiftWindows (s : State) (d : Nat) : State :=
  { s with
    ops := s.ops.map (fun (o : Op) =>
      { o with
        tIssue := o.tIssue + d
        progT := o.progT + d
        phase := match o.phase with
          | .grantWait n t a => .grantWait n t (a + d)
          | p => p })
    colls := s.colls.map (fun (c : Coll) => { c with deadline := c.deadline + d })
    pruneQ := s.pruneQ.map (fun (p : PruneCmd) => { p with at_ := p.at_ + d })
    cores := s.cores.map (fun (k : Core) => { k with progT := k.progT + d })
    clusters := s.clusters.map (fun (k : Cluster) => { k with progT := k.progT + d })
    hbms := s.hbms.map (fun (h : Hbm) => { h with prnProgT := h.prnProgT + d })
    fw := { s.fw with procs := s.fw.procs.map (fun (p : ProcState) => { p with beatT := p.beatT + d }) }
    links := s.links.map (fun (l : Link) => { l with ackProgT := l.ackProgT + d }) }

/-- Set the STATE of every context that has one status (R233). -/
def State.moveStatus (s : State) (a b : CtxStatus) : State :=
  (upto 64).foldl (fun s c =>
    match s.ctx c with
    | some x => if x.status = a then (s.modCtx c (fun x => { x with status := b })).writeCsb c else s
    | none => s) s

/-- The thaw begins: every holder is clear (R515). STATE returns to ACTIVE now, and not when the thaw has ended: R233 says only 'after thaw'
(DESIGN CHOICE, log entry 47). Every status block is written again, since none was during the Frost (R295). -/
def State.thaw (s : State) : State :=
  let s := s.setCounter blkFrost 0x02 s.frost.held.length
  let s := s.shiftWindows (s.nowN - s.frost.cutT)
  let s := ({ s with frost := { s.frost with phase := .thawing, settled := false } }).moveStatus .frozen .active
  (upto 64).foldl (fun s c => s.writeCsb c) s

/-- Clear holders of a kind (R515): ignored when none of them is set; the thaw begins when no holder is left. -/
def State.frostRelease (s : State) (mask : BitVec 5) : State :=
  if s.frost.holders &&& mask = 0 then { s with frost := { s.frost with thawIgn := true } }
  else
    let h := s.frost.holders &&& ~~~mask
    let s : State := { s with frost := { s.frost with holders := h } }
    if h = 0 ∧ s.frost.phase = .frozen then s.thaw else s

/-- FROST_CTL.THAW clears REG, CMD and PIN. -/
def State.frostThawReg (s : State) : State := s.frostRelease 7

/-- Every engine has reached its boundary (R511, R513): the cut settles, marks go out, contexts are FROZEN. -/
def State.frostSettle (s : State) : State :=
  let t := s.nowN - s.frost.startT
  let s := s.moveStatus .active .frozen
  let s : State := { s with frost := { s.frost with phase := .frozen, settled := true, cutT := s.nowN } }
  let s := ((s.count blkFrost 0x00 1).setCounter blkFrost 0x01 t).frostMarks
  let s := s.logEntry srcAon sevWarn 0x7020 [s.frost.id, s.frost.holders.toNat, t]
  if s.frost.holders = 0 then s.thaw else s

/-- A rising edge of FROST_IN, with PIN_EN 1 (R509). -/
def execFrostIn (s : State) : Done :=
  .next (if s.votes.pinEn.vote 1 ≠ 0 then s.frostStart hdPin else s)

/-- FROST_CTL.START and FROST_CTL.THAW by any origin that may write the register: the write's check is in Registers. -/
def checkFrost (_ : State) (x : Context) (o : Op) : Verdict :=
  if lacks x 0 then .fail stNotPermitted 0 else .go { o with phase := .frostHeld }

def startFrost (s : State) (_ : Op) : State := s.frostStart hdCmd

def issueFrost (s : State) (c : Nat) : State := s.issue c 0x07 checkFrost startFrost

/-- The FROST command starts a local Frost with holder CMD; it completes at thaw (R509, R233). -/
def execFrost (c : Fin 64) (s : State) : Done := .next (issueFrost s c)

/-- A transfer from the host resumes from the position it had at the cut (R189): what it has not received it asks for again. -/
def State.askAgain (s : State) : State :=
  (s.ops.filter hostTransfer).foldl (fun s o => s.askHost { o with asked := o.bytes.length }) s

/-- Back to RUNNING (R515): commands that ended during the Frost complete (R233), FROST commands with OK, and transfers, ordering commands,
collectives, exchanges and links go on. -/
def State.thawDone (s : State) : State :=
  let s : State := { s with frost := { s.frost with phase := .running } }
  let s := s.ops.foldl (fun s o => match o.phase with
    | .ended open_ => s.endNow o none open_
    | .frostHeld => s.finish o
    | _ => s) s
  let s := (upto 64).foldl (fun s c => s.settle c) s.askAgain.resumeReads
  let s := if s.pwr.shed < 4 then s.addersGo else s
  (upto 24).foldl (fun s n => s.pump n) s.exchangesGo

end Sys2Proof.Machine
end

