-- ==== Sys2Proof/Machine/GroupMsg.lean ====
section
/-! DEFINITION. Sending group messages (R389): message types, the layout of their DATA, reports and heartbeats. The manual names
the contents of DATA in order without byte places; the fields stand in that order, little-endian, packed (log entry 23). -/

namespace Sys2Proof.Machine

open Sys2Proof

/-! ### Message types (R389) -/

def gtJoin : Nat := 0x01
def gtAdmit : Nat := 0x02
def gtRefuse : Nat := 0x03
def gtFormed : Nat := 0x04
def gtJob : Nat := 0x05
def gtPlan : Nat := 0x06
def gtHeartbeat : Nat := 0x08
def gtMgrBeat : Nat := 0x09
def gtReport : Nat := 0x0A
def gtWithdraw : Nat := 0x0B
def gtDiscard : Nat := 0x0C
def gtThaw : Nat := 0x0D
def gtCommit : Nat := 0x0E
def gtTakeover : Nat := 0x0F

/-- Report codes. -/
def rpPeerReset : Nat := 1
def rpDelayed : Nat := 2
def rpSuspect : Nat := 3
def rpTimeOffset : Nat := 4
def rpReady : Nat := 5
def rpRetirement : Nat := 6

/-- Kinds of reports meant for the management mailbox: a refusal (chip, reason from bit 16), a replacement (chip, its new serial from bit
16), a suspect step, no deputy, the manager's loss, a time offset, a refused set, retirements past the limits, a missing member. -/
def mrRefused : Nat := 0
def mrSerial : Nat := 1
def mrSuspect : Nat := 2
def mrNoDeputy : Nat := 3
def mrManager : Nat := 4
def mrTime : Nat := 5
def mrSet : Nat := 6
def mrRetire : Nat := 7
def mrMissing : Nat := 8

def State.modGroup (s : State) (f : GroupState → GroupState) : State := { s with group := f s.group }
def State.mailReport (s : State) (kind v : Nat) : State := s.modGroup (fun g => { g with reports := g.reports ++ [(kind, v)] })

def Msg.gtype (m : Msg) : Nat := m.opword.toNat % 256
def Msg.term (m : Msg) : Nat := m.opword.toNat / 256 % 256

/-- Whether TERM `a` is newer than `b` (R389). -/
def termNewer (a b : Nat) : Bool := decide (1 ≤ (a + 256 - b) % 256 ∧ (a + 256 - b) % 256 ≤ 127)

/-- A group message to a chip; a message to this device waits in its own queue. -/
def State.sendGroup (s : State) (dst : BitVec 12) (gtype : Nat) (data : List Byte) : State :=
  let m := s.mkMsg opGroup dst 0 0 0 (gtype + 256 * s.group.term.toNat) 0 data
  if dst = s.group.self then { s with group := { s.group with selfQ := s.group.selfQ ++ [(s.nowN, none, m)] } } else s.sendMsg m

/-- Whether a group STATE has admitted this device. -/
def GState.inGroup : GState → Bool
  | .admitted => true
  | .running => true
  | .frosted => true
  | .waitRejoin => true
  | .held => true
  | _ => false

/-- Every member but the sender itself is reached by a message to all; the sender acts on its own at once. -/
def State.groupMembers (s : State) : List (BitVec 12) := match s.group.cfg with
  | some g => g.members
  | none => []

def State.sendAll (s : State) (gtype : Nat) (data : List Byte) : State :=
  s.groupMembers.foldl (fun s c => s.sendGroup c gtype data) s

/-- The manager and the deputy, each once. -/
def State.leaders (s : State) : List (BitVec 12) :=
  (s.group.manager :: (match s.group.deputy with
    | some d => [d]
    | none => [])).eraseDups

/-- REPORT to the manager and the deputy. -/
def State.report (s : State) (code : Nat) (data : List Byte) : State :=
  if s.group.state.inGroup then s.leaders.foldl (fun s c => s.sendGroup c gtReport (BitVec.ofNat 8 code :: data)) s else s

/-- HEARTBEAT to the manager and the deputy (R400): epochs, time base, flags. -/
def State.heartbeat (s : State) : State :=
  if !s.group.state.inGroup then s
  else
    let flags := bnat s.group.suspect + 2 * bnat s.group.delayed + 4 * bnat (s.time.sync == .holdover)
    let d := bytesOf 4 s.group.epochRecv.toNat ++ bytesOf 4 s.group.epochDone.toNat ++ bytesOf 8 s.nowN ++ [BitVec.ofNat 8 flags]
    let s := s.leaders.foldl (fun s c => s.sendGroup c gtHeartbeat d) s
    { s with group := { s.group with beatSent := s.nowN } }

/-- The member's step is delayed (R409, R455): REPORT, DELAYED in its heartbeat, sent at once (R400). -/
def State.stepDelayed (s : State) : State :=
  if !s.group.state.inGroup then s
  else
    let s := s.report rpDelayed (bytesOf 4 s.group.epochRecv.toNat)
    ({ s with group := { s.group with delayed := true } }).heartbeat

/-- The member is ready again (R409, R455). -/
def State.stepReady (s : State) : State :=
  if s.group.delayed then
    let s := s.report rpReady []
    ({ s with group := { s.group with delayed := false } }).heartbeat
  else s

/-- This device learns that a chip is admitted: its links to it carry everything (R314), unless it is refused itself (R31, R391). -/
def State.peerAdmitted (s : State) (chip : BitVec 12) : State :=
  if s.group.state = .refused then s
  else { s with links := s.links.map (fun (l : Link) => if l.peerChip = chip ∧ l.authOk then { l with admitted := true } else l) }

/-- This device learns that a chip is refused: it repeats its verdict no more (R533). -/
def State.peerRefused (s : State) (chip : BitVec 12) : State :=
  { s with links := s.links.map (fun (l : Link) => if l.peerChip = chip then { l with verdict := none } else l) }

/-- The MSI-X vector of a change of group STATE (R470). -/
def State.setGroup (s : State) (g : GState) : State :=
  if s.group.state = g then s else ({ s with group := { s.group with state := g } }).msix 67

end Sys2Proof.Machine
end

