-- ==== Sys2Proof/Machine/Time.lean ====
section
/-! DEFINITION. The time base and group time (R49 to R59, R319, R412). -/

namespace Sys2Proof.Machine

open Sys2Proof

/-- What slewing adds to a count of the time base: one count in 2,000, 500 ppm, while an offset is left (R54). -/
def TimeState.slewStep (t : TimeState) : Int :=
  if t.slewT ≥ 1999 then (if 0 < t.slew then 1 else if t.slew < 0 then -1 else 0) else 0

/-- What the corrected count rate adds to a count (R54): a whole count once the parts gathered make one; never beside a slew that holds a
count back, so that the time base does not decrease (R50). -/
def TimeState.rateStep (t : TimeState) : Int :=
  let k := t.rateT + t.rate
  if 1000000000 ≤ k then 1 else if k ≤ -1000000000 ∧ 0 ≤ t.slewStep then -1 else 0

/-- One count of the time base (R49, R50, R54). None past the last value. -/
def TimeState.tick (t : TimeState) : Option TimeState :=
  let n := ((t.now.toNat : Int) + 1 + t.slewStep + t.rateStep).toNat
  if n < 2 ^ 64 then
    some { t with
      now := BitVec.ofNat 64 n
      slew := t.slew - t.slewStep
      slewT := if t.slewT ≥ 1999 then 0 else t.slewT + 1
      rateT := t.rateT + t.rate - 1000000000 * t.rateStep }
  else none

/-- Whether this device disciplines its time base to another's: an admitted member that is not the manager (R53, R55, R56). -/
def State.syncs (s : State) : Bool := s.group.state.inGroup && s.group.role != .manager

/-- The port that the port table marks SYNC_PARENT (R321). -/
def State.parentPort (s : State) : Option Nat := (upto 24).find? (fun n => (s.port n).syncPar)

/-- A fallback parent (R57): ALT_PORT of the routing entry for the manager, else its PORT. -/
def State.fallbackPort (s : State) (lost : Option Nat) : Option Nat :=
  let e := (sparseGet 0 s.routes s.group.manager.toNat).toNat
  let port := bitsOf e 4 0
  let alt := bitsOf e 9 5
  if !bitOf e 15 then none
  else if bitOf e 10 && (s.link alt).state == .up then some alt
  else if some port ≠ lost ∧ (s.link port).state = .up then some port
  else none

/-- The port of the sync parent in use: a fallback, or the one the port table marks (R57, R321). -/
def State.parentInUse (s : State) : Option Nat := s.time.port.orElse (fun _ => s.parentPort)

/-- The sync parent's port at an interval (R57): the one in use while its link is UP and an exchange has completed within 5 ms (of the
last one, or of the admission), else a fallback. -/
def State.syncPort (s : State) : Option Nat :=
  match s.parentInUse with
  | some n =>
    if (s.link n).state = .up ∧ s.nowN < s.time.lastExch + 5000000 then some n
    else match s.fallbackPort s.parentInUse with
      | some p => some p
      | none => if (s.link n).state = .up then some n else none
  | none => s.fallbackPort none

/-- Every 1 ms a member sends SYNC_REQ to its sync parent (R54, R319). -/
def execSyncInterval (s : State) : Done :=
  .next (if !s.syncs ∨ s.nowN < s.time.lastReq + 1000000 then s
    else match s.syncPort with
      | none => { s with time := { s.time with lastReq := s.nowN, t1 := none } }
      | some n =>
        let s : State := { s with time :=
          { s.time with
            lastReq := s.nowN
            t1 := some (n, s.time.now)
            port := some n
            refChip := some (s.link n).peerChip } }
        s.sendControl n false [mkEvent 0x01 (List.replicate 7 0 ++ bytesOf 8 s.nowN)])

/-- SYNC_REQ is answered on any link that is UP (R57, R319). -/
def State.inSyncReq (s : State) (n : Nat) (e : LinkEvent) : State :=
  if (s.link n).state = .up then
    s.sendControl n false [mkEvent 0x02 (List.replicate 7 0 ++ bytesOf 8 (fieldAt e.bytes 8 8) ++ bytesOf 8 s.nowN ++ bytesOf 8 s.nowN)]
  else s

/-- The rate correction after an exchange (R54): what has gathered beside the offset being slewed, over the time since the last
exchange, within the ±1,000 ppm of two oscillators (R52); the rule gives no law (log entry 71). -/
def TimeState.newRate (t : TimeState) (off : Int) (now : Nat) : Int :=
  let k := now - t.lastExch
  if t.sync = .free ∨ k = 0 then t.rate
  else max (-2000000) (min 2000000 (t.rate + ((off - t.slew) * 1000000000).tdiv k))

/-- A measured offset from the sync parent: positive where the parent is ahead (R55, R56). A member in HOLDOVER before FORMED that is
more than 1 us behind steps, as R55 says of each admitted member, where R56 says that none steps from HOLDOVER (DESIGN CHOICE, log
entry 47). -/
def State.applyOffset (s : State) (off : Int) : State :=
  let t := s.time
  let mag := off.natAbs
  let fresh := t.sync == .free
  -- R55: one step at the first exchange after ADMIT, and until FORMED at any that finds it more than 1 us behind
  let step := t.mayStep && decide (0 < off) && (fresh || (!s.group.formed && decide (1000 < off)))
  let run := if mag ≤ 2 then t.lockRun + 1 else 0
  let t := { t with
    offset := BitVec.ofNat 8 (satAt 255 mag)
    ahead := decide (off < 0)
    lastExch := s.nowN
    t1 := none
    lockRun := run
    slew := if step then 0 else off
    rate := if step then t.rate else t.newRate off s.nowN
    now := if step then BitVec.ofNat 64 (satAt max64 (t.now.toNat + mag)) else t.now
    stepped := t.stepped || step
    mayStep := t.mayStep && !s.group.formed && !s.group.rejoined
    sync := match t.sync with
      | .free => .acquire
      | .holdover => .acquire
      | q => if run ≥ 8 then .locked else q }
  let old := s.time.sync
  let s : State := { s with time := t }
  if old = .holdover ∧ 10000 < mag then s.report rpTimeOffset [] else s

/-- SYNC_RESP (R319): offset = ((T2 - T1) - (T4 - T3)) / 2 and delay = ((T4 - T1) - (T3 - T2)) / 2; a response to no request of this
device, or one in a flit that was sent again, is discarded. A half that is not whole is rounded toward zero (DESIGN CHOICE, log entry
71). -/
def State.inSyncResp (s : State) (n : Nat) (e : LinkEvent) : State :=
  match s.time.t1 with
  | none => s
  | some (p, _) =>
    let t1 : Int := (s.link n).syncT.toNat
    if p ≠ n ∨ (fieldAt e.bytes 8 8 : Int) ≠ t1 ∨ !s.syncs ∨ (s.link n).resent then s
    else
      let t2 : Int := fieldAt e.bytes 16 8
      let t3 : Int := fieldAt e.bytes 24 8
      let t4 : Int := s.nowN
      let s : State := { s with time := { s.time with delay := ((t4 - t1) - (t3 - t2)).tdiv 2 } }
      s.applyOffset (((t2 - t1) - (t4 - t3)).tdiv 2)

/-- No exchange for 5 ms while LOCKED: HOLDOVER; a fallback parent takes over where there is one (R56, R57). The manager, whose time base
is the group time, stays LOCKED. -/
def execHoldoverEntry (s : State) : Done :=
  .next (if s.syncs ∧ s.time.sync = .locked ∧ s.time.lastExch + 5000000 ≤ s.nowN then
      let s : State := { s with time := { s.time with sync := .holdover, lockRun := 0 } }
      match s.fallbackPort s.parentInUse with
      | some p => { s with time := { s.time with port := some p, refChip := some (s.link p).peerChip } }
      | none => s
    else s)

/-- The member returns to its SYNC_PARENT port once that link has been UP for 1 s (R57). -/
def execSyncParentReturn (s : State) : Done :=
  .next (match s.parentPort with
    | some n =>
      if s.syncs ∧ (s.link n).state = .up ∧ (s.link n).upT + 1000000000 ≤ s.nowN ∧ s.time.port ≠ some n then
        { s with time := { s.time with port := some n, refChip := some (s.link n).peerChip, t1 := none } }
      else s
    | none => s)

/-- This device leaves its group: FREE, no sync parent (R56). -/
def State.timeFree (s : State) : State :=
  { s with time :=
    { s.time with
      sync := .free
      port := none
      refChip := none
      lockRun := 0
      t1 := none
      slew := 0
      rate := 0
      rateT := 0
      mayStep := false } }

/-- TIMEREF stops for longer than 10 us: the flag is set, the time base runs from the on-die oscillator (R52). -/
def execTimerefLost (s : State) : Done :=
  .next { s with time := { s.time with refLost := true, lostFlag := true } }

/-- TIMEREF returns; the flag stays until software clears it (R52). -/
def execTimerefReturn (s : State) : Done := .next { s with time := { s.time with refLost := false } }

/-- TOP_TIME_STAT (R56). -/
def State.timeStat (s : State) : Nat :=
  let mgr := s.group.role == .manager
  let valid := !mgr && s.time.sync != .free && s.time.refChip.isSome
  let st := if mgr then 2 else match s.time.sync with
    | .free => 0
    | .acquire => 1
    | .locked => 2
    | .holdover => 3
  (if valid then fieldVal ((s.time.refChip.getD 0).toNat) 20 + fieldVal 1 16 else 0) + fieldVal s.time.offset.toNat 8
  + fieldVal (bnat s.time.ahead) 4 + fieldVal (bnat s.time.stepped) 3 + fieldVal (bnat s.time.lostFlag) 2 + st

end Sys2Proof.Machine
end

