-- ==== Sys2Proof/Machine/Secure.lean ====
section
/-! DEFINITION. Security (R421, R422, R427 to R429, R488, R517 to R534): the flash and the device record, firmware slots, the
anti-rollback counters, the measurement log, certificates, quotes, peer authentication up to its messages. -/

namespace Sys2Proof.Machine

open Sys2Proof

/-! ### The flash (R421) -/

def flashRecord (copy : Nat) : Nat := 0x1_0000 + copy * 0x1_0000
def flashFactory : Nat := 0x3_0000
def flashDump (i : Nat) : Nat := 0x400_0000 + i * 0x10_0000
def flashSlot (i : Nat) : Nat := 0x200_0000 + i * 0x100_0000

/-- Bytes of the flash; an unlisted byte reads as 0 (log entry 24). -/
def State.flashRead (s : State) (a n : Nat) : List Byte := (upto n).map (fun i => sparseGet 0 s.flash.cells (a + i))

def State.flashWrite (s : State) (a : Nat) (bs : List Byte) : State :=
  { s with flash := { s.flash with cells := (bs.zipIdx).foldl (fun c e => sparsePut 0 c (a + e.2) e.1) s.flash.cells } }

/-! ### Signatures, counted (R534) -/

def State.verify (s : State) (key msg sig : List Byte) : Bool × State :=
  (Config.mldsaVerify key msg sig, s.count blkSec 0x04 1)

/-- A signature with the identity key, 3,309 bytes. -/
def State.sign (s : State) (msg : List Byte) : List Byte × State :=
  let s := s.count blkSec 0x03 1
  (padTo 3309 (Config.mldsaSign msg (s.counter blkSec 0x03)), s)

def digestOf (bs : List Byte) : List Byte := bytesOf 64 (Config.shake256 bs).toNat

/-- The serial number of an identity public key: the first 8 bytes of its digest (R34, R520). -/
def serialOf (key : List Byte) : W64 := BitVec.ofNat 64 (Config.shake256 key).toNat

/-! ### The measurement log (R527, R528) -/

/-- The 96 bytes of an entry. -/
def MeasEntry.bytes (e : MeasEntry) : List Byte :=
  bytesOf 2 e.kind ++ bytesOf 2 e.arg ++ bytesOf 4 e.index ++ bytesOf 8 e.time.toNat ++ bytesOf 64 e.digest.toNat
  ++ bytesOf 16 e.detail.toNat

/-- Append an entry: M is extended; beyond 256 entries it is not stored and LOST rises (R527). -/
def State.measure (s : State) (kind arg : Nat) (digest : Block) (detail : Nat) : State :=
  let e : MeasEntry := { kind := kind, arg := arg, index := s.sec.mlog.length + s.sec.lost, time := s.time.now, digest := digest,
                         detail := BitVec.ofNat 128 detail }
  let m := Config.shake256 (bytesOf 64 s.sec.mdig.toNat ++ e.bytes)
  if s.sec.mlog.length < 256 then { s with sec := { s.sec with mdig := m, mlog := s.sec.mlog ++ [e] } }
  else (({ s with sec := { s.sec with mdig := m, lost := s.sec.lost + 1 } }).count blkSec 0x06 1)

/-! ### Anti-rollback counters (R524 to R526) -/

/-- Read a counter; its key comes from the PUF, so without it the read fails (R523, R524). -/
def State.rpmcRead (s : State) (c : Nat) : Option Nat × State :=
  if Config.pufGood then
    let v := unitAt 0 s.flash.rpmc c
    (some v, s.setCounter blkSec c v)
  else (none, { s with sec := { s.sec with rpmcFail := true } })

/-- Advance a counter to a value, forward only, and measure it (R526, R528). -/
def State.rpmcTo (s : State) (c v : Nat) : State :=
  let old := unitAt 0 s.flash.rpmc c
  if v ≤ old then s
  else
    let s : State := { s with flash := { s.flash with rpmc := s.flash.rpmc.set c v } }
    s.measure 0x0A c 0 (old + fieldVal v 64)

/-! ### The device record (R427 to R429) -/

/-- Bytes 0 to 63 of the record for this state. -/
def State.recordBody (s : State) (seq : Nat) : List Byte :=
  [0x44, 0x52, 0x45, 0x43] ++ bytesOf 4 seq ++ [BitVec.ofNat 8 s.flash.bootSlot,
    BitVec.ofNat 8 (bnat s.flash.trial + 2 * bnat s.overflow), BitVec.ofNat 8 (min 8 s.retired.length), 0]
  ++ padTo 8 ((s.retired.take 8).map (BitVec.ofNat 8) ++ List.replicate 8 0xFF) ++ List.replicate 44 0

/-- Write the record: the copy that does not hold the accepted one, REC_SEQ one higher, then the counter (R428). -/
def State.writeDrec (s : State) : State :=
  let seq := s.flash.recSeq + 1
  let copy := 1 - s.flash.drecCopy
  let body := s.recordBody seq
  let (sig, s) := s.sign (body ++ bytesOf 8 s.sec.serial.toNat)
  let s := s.flashWrite (flashRecord copy) (body ++ sig)
  let s : State := { s with flash := { s.flash with drecCopy := copy, recSeq := seq } }
  s.rpmcTo 0 seq

/-- Whether a copy of the record is one that the SECP accepts (R428): its bytes. -/
def State.drecOk (s : State) (copy : Nat) : Option (List Byte) × State :=
  let bs := s.flashRead (flashRecord copy) 3373
  let (ok, s) := s.verify Config.pufKey (bs.take 64 ++ bytesOf 8 s.sec.serial.toNat) (bs.drop 64)
  let seq := fieldAt bs 4 4
  let c := unitAt 0 s.flash.rpmc 0
  (if bs.take 4 = [0x44, 0x52, 0x45, 0x43] ∧ ok ∧ (seq = c ∨ seq = c + 1) then some bs else none, s)

/-- Take the accepted copy, or write a new record (R428, R429): the retirement list, BOOT_SLOT and flags. -/
def State.loadDrec (s : State) : State :=
  let take (s : State) (copy : Nat) (bs : List Byte) : State :=
    let seq := fieldAt bs 4 4
    let s : State := { s with
      flash := { s.flash with drecCopy := copy, recSeq := seq, bootSlot := fieldAt bs 8 1 % 2, trial := bitOf (fieldAt bs 9 1) 0 }
      retired := ((bs.drop 12).take (min 8 (fieldAt bs 10 1))).map (fun b => b.toNat % 128)
      overflow := bitOf (fieldAt bs 9 1) 1 }
    (s.rpmcTo 0 seq).measure 0x06 copy (Config.shake256 (bs.take 64)) (seq + fieldVal (fieldAt bs 8 1) 32)
  let (a, s) := s.drecOk 0
  let (b, s) := s.drecOk 1
  match a, b with
  | some x, some y => if fieldAt x 4 4 < fieldAt y 4 4 then take s 1 y else take s 0 x
  | some x, none => take s 0 x
  | none, some y => take s 1 y
  | none, none =>
    let c := unitAt 0 s.flash.rpmc 0
    let s : State := { s with
      flash := { s.flash with drecCopy := 1, recSeq := c, bootSlot := 0, trial := false }
      retired := []
      overflow := false
      start := { s.start with drecNew := true } }
    let s := s.writeDrec
    if 0 < c then s.measure 0x07 0 0 c else s

/-! ### Firmware slots (R427, R488, R518, R525) -/

/-- A directory entry of a slot header: OFFSET, LENGTH and digest of image 0 to 3. -/
def slotImage (h : List Byte) (i : Nat) : Nat × Nat × List Byte :=
  (fieldAt h (64 + 80 * i) 4, fieldAt h (68 + 80 * i) 4, (h.drop (80 + 80 * i)).take 64)

def slotSec (h : List Byte) : Nat := fieldAt h 8 4
def slotKey (h : List Byte) : List Byte := (h.drop 384).take 1952

/-- Whether a slot header's signature verifies against the root digest in ROM (R518, R427). -/
def State.slotSigned (s : State) (h : List Byte) : Bool × State :=
  let (ok, s) := s.verify (slotKey h) (h.take 2336) ((h.drop 2336).take 3309)
  (h.take 4 = [0x52, 0x4F, 0x4E, 0x4E] && Config.shake256 (slotKey h) == Config.romRoot && ok, s)

/-- Whether every image's digest is that of its directory entry; `rd` reads the slot. -/
def imagesOk (h : List Byte) (rd : Nat → Nat → List Byte) : Bool :=
  (upto 4).all (fun i =>
    let (off, len, d) := slotImage h i
    digestOf (rd off len) == d)

/-- Whether a slot passes its signature, digests and SEC_VERSION (R427, R525): a refusal by version is noted. -/
def State.slotOk (s : State) (slot : Nat) : Bool × State :=
  let h := s.flashRead (flashSlot slot) 5645
  let (sig, s) := s.slotSigned h
  let good := sig && imagesOk h (fun off len => s.flashRead (flashSlot slot + off) len)
  let fresh := decide (unitAt 0 s.flash.rpmc 2 ≤ slotSec h) && Config.pufGood
  (good && fresh, if good && !fresh then { s with sec := { s.sec with rollback := true } } else s)

/-! ### Certificates (R522, R523) -/

/-- A certificate's fields: KIND, SERIAL, issuer digest, subject key; whether its signature verifies with a key. -/
def certKind (c : List Byte) : Nat := if c.take 4 = [0x4D, 0x43, 0x52, 0x54] ∧ fieldAt c 4 1 = 1 then fieldAt c 5 1 else 0
def certSerial (c : List Byte) : Nat := fieldAt c 8 8
def certIssuer (c : List Byte) : List Byte := (c.drop 16).take 64
def certKey (c : List Byte) : List Byte := (c.drop 128).take 1952
def certLen : Nat := 5389

def State.certSigned (s : State) (key c : List Byte) : Bool × State := s.verify key (c.take 2080) ((c.drop 2080).take 3309)

/-- The two certificates of the factory area; they stand at its start, issuing first (log entry 24). -/
def State.certs (s : State) : List Byte := s.flashRead flashFactory (2 * certLen)

/-- The root public key: that of the running slot header (R518). -/
def State.rootKey (s : State) : List Byte := slotKey (s.flashRead (flashSlot s.start.runSlot) 5645)

/-- Whether a chain of issuing and identity certificate is valid for a subject key and serial (R522). An issuing certificate
that has verified before is taken from the cache of digests (R532). -/
def State.chainOk (s : State) (issuing ident : List Byte) (key : List Byte) (serial : W64) : Bool × State :=
  let dig := Config.shake256 issuing
  let (a, s) : Bool × State :=
    if s.sec.certCache.contains dig then (true, s)
    else
      let (ok, s) := s.certSigned s.rootKey issuing
      let ok := ok && certKind issuing == 1 && certIssuer issuing == bytesOf 64 Config.romRoot.toNat
      (ok, if ok then { s with sec := { s.sec with certCache := s.sec.certCache ++ [dig] } } else s)
  let (b, s) := s.certSigned (certKey issuing) ident
  (a && b && certKind ident == 2 && certIssuer ident == digestOf (certKey issuing) && certKey ident == key
    && certSerial ident == serial.toNat, s)

/-! ### Quotes (R529) -/

/-- A quote over a nonce, SHORT or FULL. -/
def State.quote (s : State) (full : Bool) (nonce : BitVec 256) : List Byte × State :=
  let chip := match s.group.cfg with
    | some _ => s.group.self.toNat
    | none => 0xFFFF
  let body := [0x51, 0x55, 0x4F, 0x54, BitVec.ofNat 8 (bnat full), 0, 0, 0] ++ bytesOf 8 s.sec.serial.toNat ++ bytesOf 8 s.nowN
    ++ bytesOf 2 chip ++ [0, 0] ++ bytesOf 4 s.sec.mlog.length ++ bytesOf 4 s.sec.lost ++ [0, 0, 0, 0]
    ++ bytesOf 32 nonce.toNat ++ bytesOf 64 s.sec.ownerDig.toNat ++ bytesOf 64 s.sec.mdig.toNat
    ++ (if full then s.sec.mlog.flatMap MeasEntry.bytes else [])
  let (sig, s) := s.sign body
  (body ++ sig, s)

/-- A quote's checks by a peer (R532): the number of the first that fails, 0 when all pass. `t`: when the challenge went; `at_`: when the response arrived. -/
def State.checkResponse (s : State) (data : List Byte) (serial : W64) (nonce : BitVec 256) (t at_ : Nat) : Nat × State :=
  let q := data.take 3509
  let issuing := (data.drop 3509).take certLen
  let ident := (data.drop (3509 + certLen)).take certLen
  let key := certKey ident
  let (c1, s) := s.chainOk issuing ident key (serialOf key)
  let (c2, s) := s.verify key (q.take 200) (q.drop 200)
  let c3 := decide (fieldAt q 40 32 = nonce.toNat ∧ at_ ≤ t + 100000000)
  let c4 := decide (fieldAt q 8 8 = serial.toNat)
  let c5 := decide (fieldAt q 72 64 = s.sec.ownerDig.toNat)
  (if !c1 then 1 else if !c2 then 2 else if !c3 then 3 else if !c4 then 4 else if !c5 then 5 else 0, s)

/-! ### Messages (R531, R533) -/

def atChallenge : Nat := 1
def atResponse : Nat := 2
def atVerdict : Nat := 3

/-- An ATTEST message to the peer of a port, or to a chip. -/
def State.attestMsg (s : State) (dst : BitVec 12) (atype : Nat) (data : List Byte) : Msg := s.mkMsg opAttest dst 0 0 0 atype 0 data

/-- A link reaches UP from NEGOTIATE: a challenge with a fresh nonce (R531). -/
def State.challenge (s : State) (n : Nat) : State :=
  let v := Config.nonce s.free
  let s : State := { s with free := s.free + 1 }
  let s := s.modLink n (fun l => { l with nonce := some v, nonceAt := s.nowN, authOk := false, admitted := false, verdict := none })
  s.sendOn n (s.attestMsg (s.link n).peerChip atChallenge (bytesOf 32 v.toNat))

/-- CHALLENGE is answered with a RESPONSE over its nonce (R531); while the SECP is down it waits (R484). -/
def State.inChallenge (s : State) (n : Nat) (m : Msg) : State :=
  let (q, s) := s.quote false (BitVec.ofNat 256 (fieldAt m.data 0 32))
  s.sendOn n (s.attestMsg (s.link n).peerChip atResponse (q ++ s.certs))

/-- A VERDICT's data. -/
def verdictData (chip : BitVec 12) (serial : W64) (res : Byte × Byte) : List Byte :=
  bytesOf 2 chip.toNat ++ bytesOf 8 serial.toNat ++ [res.1, res.2]

/-- SEC_STAT (R534). -/
def State.secStat (s : State) : Nat :=
  fieldVal s.sec.mlog.length 16 + fieldVal (bnat (decide (0 < s.sec.lost))) 6 + fieldVal (bnat s.sec.rollback) 5
  + fieldVal (bnat s.sec.rpmcFail) 4 + fieldVal (bnat s.sec.certInv) 3 + fieldVal (bnat s.sec.pufFail) 2
  + fieldVal (bnat s.sec.idReady) 1

end Sys2Proof.Machine
end

