-- ==== Sys2Proof/Machine/Contexts.lean ====
section
/-! DEFINITION. Contexts as Ronon manages them (R26, R120, R194, R263, R264, R266, R475 to R480): creation, destruction,
region entries, the records of a JOB message. -/

namespace Sys2Proof.Machine

open Sys2Proof

/-! ### The context record (R477) -/

def cContext (r : Block) : Nat := fld r 0 1
def cClusters (r : Block) : Nat := fld r 1 1
def cSlots (r : Block) : Nat := fld r 2 2
def cSqBase (r : Block) : Nat := fld r 4 6
def cSqLog2 (r : Block) : Nat := fld r 10 2
def cCqBase (r : Block) : Nat := fld r 12 6
def cCqLog2 (r : Block) : Nat := fld r 18 2
def cCsb (r : Block) : Nat := fld r 20 6
def cJob (r : Block) : Nat := fld r 26 2
def cPerm (r : Block) : Nat := fldBits r 28 1 3 0

/-- Reasons of mailbox answers (the *Mailbox reasons* table). -/
def reNotReady : Nat := 1
def reNoSession : Nat := 2
def reNotOwner : Nat := 3
def reClusterFull : Nat := 4
def reNoContext : Nat := 5
def reNoSlots : Nat := 6
def reMajor : Nat := 7
def reMinor : Nat := 8
def reGraftBusy : Nat := 9
def reEmergency : Nat := 0xA
def reNotHalted : Nat := 0xB
def reFrost : Nat := 0xC
def reImage : Nat := 0xD
def reCoreRetired : Nat := 0xE
def reDmpRestart : Nat := 0xF

/-- Whether a range lies in HBM below the reserve, or in one cluster memory (R194). -/
def inRingMemory (a n : Nat) : Bool :=
  decide (a + n ≤ hbmCtxEnd)
  || (match clusterOf a, clusterOf (a + n - 1) with
      | some (c, _), some (d, _) => c == d
      | _, _ => false)

/-- Whether a record's sizes and alignments obey R194 and R477. -/
def recordShape (r : Block) : Bool :=
  decide (cContext r ≤ 63 ∨ cContext r = 0xFF) && cClusters r != 0 && decide (cSlots r ≤ 1024)
  && decide (6 ≤ cSqLog2 r ∧ cSqLog2 r ≤ 16 ∧ cSqLog2 r + 2 ≤ cCqLog2 r ∧ cCqLog2 r ≤ 18)
  && cSqBase r % 4096 == 0 && cCqBase r % 4096 == 0 && cCsb r % 64 == 0
  && inRingMemory (cSqBase r) (64 * 2 ^ cSqLog2 r) && inRingMemory (cCqBase r) (32 * 2 ^ cCqLog2 r) && inRingMemory (cCsb r) 64

/-- Whether a cluster has a core in service. -/
def State.hasCore (s : State) (n : Nat) : Bool := (upto 16).any (fun k => (s.core (16 * n + k)).inService && !(s.core (16 * n + k)).retired)

/-- Contexts active on a cluster (R26). -/
def State.ctxCount (s : State) (n : Nat) : Nat :=
  (s.ctxs.filter (fun (x : Option Context) => match x with
    | some x => x.clusters.getLsbD n
    | none => false)).length

/-- Whether a slot belongs to no context. -/
def State.slotFree (s : State) (k : Nat) : Bool :=
  s.ctxs.all (fun (x : Option Context) => match x with
    | some x => decide (k < x.slotBase ∨ x.slotBase + x.slotCount ≤ k)
    | none => true)

/-- The lowest run of free slots (R120, R478). -/
def State.slotRun (s : State) (n : Nat) : Option Nat :=
  (upto 1025).find? (fun b => decide (b + n ≤ 1024) && (upto n).all (fun i => s.slotFree (b + i)))

def noRegion : Region := { base := 0, limit := 0, perm := 0 }

/-- A new context: ACTIVE, its rings empty, every region entry invalid (R478). -/
def freshContext (r : Block) (owner : Owner) (slots : Nat) : Context :=
  { owner := owner, clusters := BitVec.ofNat 8 (cClusters r), slotBase := slots, slotCount := cSlots r
    sqBase := BitVec.ofNat 48 (cSqBase r), sqLog2 := cSqLog2 r, cqBase := BitVec.ofNat 48 (cCqBase r), cqLog2 := cCqLog2 r
    csb := BitVec.ofNat 48 (cCsb r), jobId := BitVec.ofNat 16 (cJob r), cperm := BitVec.ofNat 8 (cPerm r), sqHead := 0
    sqTail := 0, cqHead := 0, cqTail := 0, status := .active, dbErrs := 0
    regions := List.replicate 64 noRegion, streams := List.replicate 8 { grant := 0, prev := 0, consumed := 0 }
    spaces := [], issueWait := none, pending := none, grants := [], latchedSq := none, latchedCq := none, planRecs := [], dmas := [] }

/-- Create a context: its number and first slot, or a status and reason (R478). -/
def State.createCtx (s : State) (r : Block) : (Nat × Nat) ⊕ (Byte × Nat) :=
  if !recordShape r then .inr (stBadShape, 0)
  else
    let cs := (upto 8).filter (fun n => bitOf (cClusters r) n)
    if cs.any (fun n => !s.hasCore n) then .inr (stNotPermitted, reCoreRetired)
    else if cs.any (fun n => decide (8 ≤ s.ctxCount n)) then .inr (stNotPermitted, reClusterFull)
    else match (upto 64).find? (fun c => (s.ctx c).isNone && (cContext r == 0xFF || cContext r == c)) with
      | none => .inr (stNotPermitted, reNoContext)
      | some c => match s.slotRun (cSlots r) with
        | none => .inr (stNotPermitted, reNoSlots)
        | some b => .inl (c, b)

/-- Assign a run of slots to a context (R120), their descriptors all zero, so that VALID is clear until a TRUG_SLOT_SET (log entry 3). -/
def State.giveSlots (s : State) (c b n : Nat) : State :=
  { s with slots := s.slots.filter (fun e => decide (e.1 < b)) ++ (upto n).map (fun i => (b + i, { ctx := c, desc := 0 }))
      ++ s.slots.filter (fun e => decide (b + n ≤ e.1)) }

/-- A number names another context from now on: no core was bound last to the new one (R144). -/
def State.forgetCtx (s : State) (c : Nat) : State :=
  { s with cores := s.cores.map (fun (k : Core) => if k.lastCtx = some c then { k with lastCtx := none } else k) }

/-- A new context of this device: FROZEN while a Frost holds it (R233). -/
def State.newCtx (s : State) (r : Block) (owner : Owner) (slots : Nat) : Context :=
  { freshContext r owner slots with status := if s.frost.phase = .frozen then .frozen else .active }

/-- Put a created context in place with its slots, its status block written; the counters of its CONTEXT set start from zero. -/
def State.putCtx (s : State) (c b : Nat) (r : Block) (owner : Owner) : State :=
  ((((s.forgetCtx c).giveSlots c b (cSlots r)).setCtx c (some (s.newCtx r owner b))).perfClear 3 c).putCsb c

/-- Destroy a context: aborted first (R232), its slots and memory in the reserve released (R473). -/
def State.destroyCtx (s : State) (c : Nat) : State :=
  match s.ctx c with
  | none => s
  | some x =>
    let s := if x.status = .active ∨ x.status = .frozen then s.endContext c stAbortedContext .aborted else s
    let s : State := { s with slots := s.slots.filter (fun e => decide (e.1 < x.slotBase ∨ x.slotBase + x.slotCount ≤ e.1)) }
    (s.forgetCtx c).setCtx c none

/-- Abort a context (R232). -/
def State.abortCtx (s : State) (c : Nat) : State :=
  match s.ctx c with
  | some x => if x.status = .active ∨ x.status = .frozen then s.endContext c stAbortedContext .aborted else s
  | none => s

/-! ### Region entries (R263, R264, R266) -/

def regionOf (e : BitVec 128) : Region :=
  { base := e.extractLsb' 0 48, perm := e.extractLsb' 48 16, limit := e.extractLsb' 64 48 }

/-- Whether a region entry obeys R263 and R264 for a context. -/
def regionOk (x : Context) (r : Region) : Bool :=
  let b := r.base.toNat
  let z := r.limit.toNat
  b % 4096 == 0 && z % 4096 == 4095 && decide (b ≤ z) && inCtxRange b (z + 1 - b)
  && (match clusterOf b with
      | some (n, _) => x.clusters.getLsbD n
      | none => true)
  && (match coreOf b with
      | some (k, _) => x.clusters.getLsbD (k / 16)
      | none => true)

/-- Whether a waiting region change may be applied: nothing issued and incomplete, no remote grant (R266). -/
def State.regionReady (s : State) (c : Nat) (x : Context) : Bool := (s.openOps c).isEmpty && x.grants.isEmpty

/-- Apply a waiting change and let issue go on (R266). -/
def State.applyRegion (s : State) (c : Nat) (p : RegionPending) : State :=
  s.modCtx c (fun x => { x with regions := x.regions.set p.index p.region, pending := none })

/-! ### The records of a JOB message (R480) -/

/-- Clear a completion ring to zero (R224, R396). -/
def State.clearCq (s : State) (r : Block) : State :=
  s.storeHome .fabric (cCqBase r) (List.replicate (32 * 2 ^ cCqLog2 r) 0) []

/-- A context from a JOB's record: it belongs to the group (R476). -/
def State.jobCreate (s : State) (r : Block) : State :=
  match s.createCtx r with
  | .inl (c, b) => (s.clearCq r).putCtx c b r .group
  | .inr _ => s

/-- The records of a JOB message: type and body, by fuel. -/
def jobRecords : Nat → List Byte → List (Nat × List Byte)
  | 0, _ => []
  | k + 1, bs =>
    if bs.length < 4 then []
    else
      let n := fieldAt bs 2 2
      (fieldAt bs 0 1, (bs.drop 4).take n) :: jobRecords k (bs.drop (4 + n))

end Sys2Proof.Machine
end

