-- ==== Sys2Proof/Machine/Issue.lean ====
section
/-! DEFINITION. Issue of whatever stands next on a ring (R145, R200, R201), and the issue again of commands that a restart or a
replay reissues (R203, R222, R231, R504). -/

namespace Sys2Proof.Machine

open Sys2Proof

/-- The issue checks of an opcode with a core or cluster picked for it. -/
def checkOf (opc pick : Nat) : State → Context → Op → Verdict :=
  match opc with
  | 0x00 => checkBare
  | 0x01 => checkWaiting
  | 0x02 => checkRange
  | 0x03 => checkRange
  | 0x04 => checkSignal
  | 0x05 => checkWait
  | 0x06 => checkWaiting
  | 0x07 => checkFrost
  | 0x10 => checkMatmul pick
  | 0x11 => checkMatmul pick
  | 0x12 => checkAcc pick
  | 0x13 => checkAcc pick
  | 0x14 => checkRelease
  | 0x18 => checkVec pick
  | 0x20 => checkDma pick
  | 0x21 => checkSlice pick
  | 0x29 => checkPost
  | 0x30 => checkColl
  | 0x31 => checkColl
  | 0x32 => checkColl
  | 0x33 => checkColl
  | 0x38 => checkPrune
  | 0x39 => checkSweep
  | 0x3C => checkRake (pick / 16)
  | _ => fun _ _ _ => .fail stBadOpcode 0

/-- What starts a command of an opcode once its checks have passed. -/
def startOf (opc : Nat) : State → Op → State :=
  match opc with
  | 0x00 => startDone
  | 0x05 => fun s o => s.pollWait o
  | 0x07 => startFrost
  | 0x10 => startMatmul
  | 0x11 => startMatmul
  | 0x12 => startAcc
  | 0x13 => startAcc
  | 0x14 => startRelease
  | 0x18 => startOnSpace
  | 0x20 => startDma
  | 0x21 => startSlice
  | 0x29 => startPost
  | 0x30 => startColl
  | 0x31 => startColl
  | 0x32 => startColl
  | 0x33 => startColl
  | 0x38 => startPrune
  | 0x39 => startSweep
  | _ => startNone

/-- Issue a context's next entry, whatever it is (R200, R206, R221). -/
def State.issueNext (s : State) (c pick : Nat) : State :=
  match s.nextEntry c with
  | none => s
  | some (x, d) =>
    let opc := dOpcode d
    if !(s.entryBad x x.sqHead).isEmpty then issuePoisonedHead s c
    else if opc = 0x28 then issueSlotSet s c
    else s.issue c opc (checkOf opc pick) (startOf opc)

/-! ### Reissue -/

/-- Whether a command may run again from its start (R203): it carries IDEMPOTENT, on an opcode that the table marks Yes, and
is no transfer of a host stream. -/
def mayRepeat (d : Block) : Bool :=
  dIdempotent d
  && [0x00, 0x01, 0x02, 0x03, 0x05, 0x06, 0x10, 0x11, 0x12, 0x13, 0x14, 0x18, 0x20, 0x21, 0x39, 0x3C].contains (dOpcode d)
  && !(dOpcode d == 0x20 && (xStream d).isSome)

/-- Issue an issued command again, from its checks on (R504). What it waits for leaves it among the operations, in phase
RESTART, to be tried again. Its CFG_GEN is the generation in effect at this issue: R225 names the one in effect when a command was issued,
and not which of two issues counts (DESIGN CHOICE, log entry 75). -/
def State.reissue (s : State) (o : Op) (pick : Nat) : State :=
  match s.ctx o.ctx with
  | none => s
  | some x =>
    let q : Op := { s.newOp o.ctx x o.desc with idx := o.idx, slots := o.slots, tIssue := o.tIssue, rflags := rfReissued }
    let opc := dOpcode o.desc
    match checkOf opc pick s x q with
    | .fail st off => (s.finishNow { q with status := st, d0 := BitVec.ofNat 32 off } none).settle o.ctx
    | .fault a =>
      (s.finishNow { q with status := stRegionFault, d0 := BitVec.ofNat 32 a, d1 := BitVec.ofNat 16 (a / 2 ^ 32) } none).settle o.ctx
    | .poisoned off bad =>
      ((s.notePoison (.cluster q.cluster) bad).finishNow ({ q with status := stPoison, d0 := BitVec.ofNat 32 off }.flag rfPoison) none).settle o.ctx
    | .wait w => (s.putBack { q with phase := .restart }).noteWait o.ctx w
    | .go q' =>
      let q' := { q' with rflags := q'.rflags ||| rfReissued }
      (startOf opc (s.putBack q') q').settle o.ctx

/-- Try the commands of a context that wait to be reissued again, in issue order. -/
def State.retry (s : State) (c pick : Nat) : State :=
  (s.ops.filter (fun o => o.ctx == c && o.phase == .restart)).foldl (fun (t : State) (o : Op) =>
    (t.dropOp c o.idx).reissue o pick) s

/-- Do something with a cluster's held issue let go (R504: the suspect's commands run while the cluster's other issue is held). -/
def State.lifted (s : State) (n : Nat) (f : State → State) : State :=
  let held := (s.cluster n).issueHeld
  (f (s.modCluster n (fun k => { k with issueHeld := false }))).modCluster n (fun k => { k with issueHeld := held })

/-- A command that runs again from its start without new checks, under the generation of its first issue, its bindings and groups standing
(R225, R231; log entry 75). -/
def Op.again (o : Op) : Op :=
  { o with
    phase := match o.phase with
      | .epilogue => .running
      | .digest => .running
      | .grantWait _ _ _ => .running
      | .sending => .running
      | p => p
    status := 0
    rflags := rfReissued
    d0 := 0
    d1 := 0
    fill := 0
    bytes := []
    asked := 0
    wrote := 0
    parts := []
    bad := []
    reads := []
    rgrants := o.rgrants.filter (fun g => !g.lost) }

/-! ### Doorbells (R187, R197, R199) and a CSP that goes on -/

/-- SQ_TAIL takes a value, or ignores and counts it (R199). -/
def State.setTail (s : State) (c : Nat) (v : W32) : State :=
  match s.ctx c with
  | none => s
  | some x =>
    let n := (v - x.sqHead).toNat
    if n < (x.sqTail - x.sqHead).toNat ∨ 2 ^ x.sqLog2 < n then
      (s.modCtx c (fun x => { x with dbErrs := BitVec.ofNat 16 (satAt 0xFFFF (x.dbErrs.toNat + 1)) })).writeCsb c
    else s.modCtx c (fun x => { x with sqTail := v })

/-- CQ_HEAD takes a value, or ignores and counts it (R199). -/
def State.setHead (s : State) (c : Nat) (v : W32) : State :=
  match s.ctx c with
  | none => s
  | some x =>
    if (x.cqTail - x.cqHead).toNat < (x.cqTail - v).toNat then
      (s.modCtx c (fun x => { x with dbErrs := BitVec.ofNat 16 (satAt 0xFFFF (x.dbErrs.toNat + 1)) })).writeCsb c
    else s.modCtx c (fun x => { x with cqHead := v })

/-- Whether a CSP of a context's cluster set runs; while none does, its doorbells are latched (R484, R611). -/
def State.served (s : State) (x : Context) : Bool := (clustersOf x).any (fun n => (s.proc (3 + n)).runs)

/-- Doorbells latched for a context take effect. -/
def State.ringLatched (s : State) (c : Nat) : State :=
  match s.ctx c with
  | none => s
  | some x =>
    let s := match x.latchedCq with
      | some v => s.setHead c v
      | none => s
    let s := match x.latchedSq with
      | some v => s.setTail c v
      | none => s
    s.modCtx c (fun x => { x with latchedSq := none, latchedCq := none })

/-- The CSP of a cluster goes on: the records of completions that cores hold are written, latched doorbells act (R484). -/
def State.cspBack (s : State) (n : Nat) : State :=
  let mine := (s.cores.flatMap (fun k => k.held)).filter (fun h => h.cluster == n)
  let s : State := { s with cores := s.cores.map (fun (k : Core) => { k with held := k.held.filter (fun h => h.cluster != n) }) }
  let s := mine.foldl (fun (t : State) (h : Op) => ((t.putBack h).finish h).settle h.ctx) s
  (upto 64).foldl (fun (t : State) c => match t.ctx c with
    | some x => if x.clusters.getLsbD n then t.ringLatched c else t
    | none => t) s

/-- End a command wherever it stands. -/
def State.killOp (s : State) (o : Op) (st : Byte) : State :=
  match s.colls.find? (fun c => c.ctx == o.ctx && c.idx == o.idx), s.prune? o.ctx o.idx with
  | some c, _ => s.collEnd c st
  | none, some p => s.prEnd p st
  | none, none =>
    let bs := s.batches.map (fun (b : Batch) => { b with reqs := b.reqs.filter (fun r => !o.is r.ctx r.idx) })
    let s : State := { s with batches := bs.filter (fun b => !b.reqs.isEmpty || b.pass.isSome) }
    (s.releaseGrants o).endOp o st

/-- A CSP that restarts reissues a command, or completes it with SCHED_RESTART (R231). -/
def State.handleRestart (s : State) (o : Op) : State :=
  if !mayRepeat o.desc then s.killOp o stSchedRestart
  else
    let q := o.again
    match dOpcode o.desc with
    | 0x20 => (s.putOp q).goTransfer q
    | 0x39 =>
      let s : State := { s with pruneQ := s.pruneQ.filter (fun p => !(p.ctx == o.ctx && p.idx == o.idx)) }
      startSweep (s.putOp q) q
    | _ => s.putOp q

/-! ### Meanings -/

/-- A context whose issue waited tries again: its reissued commands, then its next entry (R201). -/
def State.resume (s : State) (c pick : Nat) : State :=
  match s.ctx c with
  | none => s
  | some x =>
    let s := if s.frost.phase ≠ .running ∨ s.sun.suspects.contains c then s
      else match s.sun.replay with
        | some r => if r.rest.contains c then s else s.lifted r.cluster (fun t => t.retry c pick)
        | none => s.retry c pick
    if x.issueWait.isSome then s.issueNext c pick else s

/-- Issue that waited resumes (R201, and the other holds of R499 once their cause is gone). -/
def execIssueResume (c : Fin 64) (s : State) : Done := .next (s.resume c 128)

/-- A core that is free goes to the space that began to wait first among those it can serve (R145). -/
def execFreeCoreGrant (core : Fin 128) (s : State) : Done :=
  .next (if !s.coreUp core || (s.core core).bound.isSome || s.batches.any (fun b => b.core == some core.val) then s
    else match s.coreWait.find? (fun w => match s.ctx w.1 with
        | some x => x.clusters.getLsbD (core.val / 16)
        | none => false) with
      | some w => s.resume w.1 core
      | none => s)

end Sys2Proof.Machine
end

