-- ==== Sys2Proof/Machine/Reset.lean ====
section
/-! DEFINITION. Resets, escalation, second faults, parking, suspects and core retirement (R28 to R31, R432, R493 to R508, R572):
what each reset does at its start, and what its completion does. The restart of processors is in Procs. -/

namespace Sys2Proof.Machine

open Sys2Proof

/-! ### Units -/

/-- SUN_STAT.LAST_KIND of a reset unit. -/
def unitKind : ResetUnit → Nat
  | .core _ => 1
  | .cluster _ => 2
  | .port _ => 3
  | .pruner _ => 4
  | .proc _ => 5
  | .warm => 6
  | .cold => 7

/-- SUN_STAT.LAST_UNIT of a reset unit. -/
def unitIndex : ResetUnit → Nat
  | .core k => k.val
  | .cluster n => n.val
  | .port n => n.val
  | .pruner n => n.val
  | .proc p => procCode p
  | .warm => 0
  | .cold => 0

/-- Whether a reset covers a unit (R500, R505). Processors are in the control complex, which only a device reset covers. -/
def covers (u v : ResetUnit) : Bool :=
  match u, v with
  | .warm, _ => true
  | .cold, _ => true
  | .cluster n, .core k => k.val / 16 == n.val
  | _, _ => u == v

/-- A window of SUN_WIN_0 or SUN_WIN_1 in ms; 0 is read as 1. -/
def winMs (t : Triple) (rst : W16) : Nat := max 1 (t.vote rst).toNat

/-- The restart time of a processor in ms (R464). -/
def restartMs : Proc → Nat
  | .secp => 50
  | .pmp => 20
  | .dmp => 30
  | .csp _ => 30

/-- Whether a suspect replay runs on a cluster (R504). -/
def State.replaying (s : State) (n : Nat) : Bool := match s.sun.replay with
  | some r => r.cluster == n && r.ctx.isSome
  | none => false

/-- The window of a unit in ns: of its progress and of its reset (R466, R495, R500); 10 ms for the cores and cluster of a
replay (R504). -/
def State.window (s : State) : ResetUnit → Nat
  | .core k => 1000000 * (if s.replaying (k.val / 16) then 10 else winMs s.votes.coreMs 0x32)
  | .cluster n => 1000000 * (if s.replaying n then 10 else winMs s.votes.clusterMs 0x64)
  | .port _ => 1000000 * winMs s.votes.runnerMs 0x0A
  | .pruner _ => 1000000 * winMs s.votes.prunerMs 0xC8
  | .proc p => 2000000 * restartMs p
  | .warm => 1000000000
  | .cold => 8000000000

def State.sunEvent (s : State) (bit : Nat) : State := { s with sun := { s.sun with event := setBits s.sun.event (2 ^ bit) } }

def evHang : Nat := 0
def evBurstGap : Nat := 1
def evEscalated : Nat := 2
def evQuarantine : Nat := 3
def evSecondFault : Nat := 4
def evMachinery : Nat := 5

/-- CAUSE of TOP_RESET_STAT. -/
def whyWarm : Nat := 1
def whyCold : Nat := 2
def whyFatal : Nat := 3
def whyEscalation : Nat := 4
def whyUnpark : Nat := 5
def whyTrip : Nat := 6

/-! ### Commands that a reset ends (R501) -/

/-- End a command with ABORTED_RESET. While the CSP of its cluster is down, the core keeps the record (R484). -/
def State.abortOp (s : State) (o : Op) : State :=
  let s := s.releaseGrants o
  if (s.proc (3 + o.cluster)).runs then s.endOp o stAbortedReset
  else
    let s := o.outs.foldl (fun (t : State) r => t.openRange r.1 r.2) s
    (s.dropOp o.ctx o.idx).modCore (heldAt o) (fun k =>
      { k with held := k.held ++ [o.cut stAbortedReset] })

/-- Settle every context's stream. -/
def State.settleAll (s : State) : State := (upto 64).foldl (fun (t : State) c => t.settle c) s

/-- The accumulator spaces bound to a core end with their groups, without an epilogue (R501, R153). -/
def State.unbindCore (s : State) (k : Nat) : State :=
  let s : State := { s with ctxs := s.ctxs.map (fun (x : Option Context) => x.map (fun (x : Context) =>
    { x with spaces := x.spaces.filter (fun p => p.core != k) })) }
  s.modCore k (fun r => { r with bound := none })

/-- The operations that run on a core: issued to it, and the requests of its Trug pass (R133). -/
def State.opsOnCore (s : State) (k : Nat) : List Op :=
  let reqs := (s.batches.filter (fun b => b.core == some k)).flatMap (fun b => b.reqs)
  s.ops.filter (fun o => o.core == some k && o.phase != .restart || reqs.any (fun r => o.is r.ctx r.idx))

/-- A core reset begins (R500, R501): its commands end, its tiles and their marks are zero, its spaces are unbound. -/
def State.resetCore (s : State) (k : Nat) : State :=
  let s := (s.opsOnCore k).foldl (fun (t : State) o => t.abortOp o) s
  let s : State := { s with batches := s.batches.filter (fun b => b.core != some k) }
  let s := (s.unbindCore k).setMem (s.mem.zeroCore k)
  s.modCore k (fun r =>
    { r with
      resetting := true
      lastCtx := none
      arrayOn := false
      lost := []
      held := r.held.map (fun o => o.raise stAbortedReset) })

/-- Commands that a cluster reset leaves alone: collectives and Pruner commands (R359, R385), those waiting to be reissued. -/
def outsideCluster (o : Op) : Bool :=
  [0x30, 0x31, 0x32, 0x33, 0x38, 0x39].contains (dOpcode o.desc) || o.phase == .restart

/-- Whether a plan drives a context: the group manager created it (R476). -/
def Context.planned (x : Context) : Bool := x.owner == .group

/-- Whether a context driven by a plan has a cluster in its set (R409). -/
def State.plansOn (s : State) (n : Nat) : Bool := s.ctxs.any (fun (x : Option Context) => match x with
  | some x => x.planned && x.clusters.getLsbD n
  | none => false)

/-- Whether a context in a collective has a cluster in its set (R359). -/
def State.collsOn (s : State) (n : Nat) : Bool := s.colls.any (fun c => match s.ctx c.ctx with
  | some x => x.clusters.getLsbD n
  | none => false)

/-- A cluster is back, or its replay over: the member is ready again (R409, R411), unless a plan's context there is quarantined (R504), or
shed stage 5 still delays it (R455). -/
def State.readyAfter (s : State) (n : Nat) : State :=
  let bad := s.ctxs.any (fun (x : Option Context) => match x with
    | some x => x.planned && x.clusters.getLsbD n && x.status == .quarantined
    | none => false)
  if bad ∨ 5 ≤ s.pwr.shed then s else s.stepReady

/-- A cluster reset begins (R500, R501). After a hang, the commands that may run again of contexts that no plan drives are
held for the replay of R504, and their contexts are suspects. A step is delayed where a plan's context is covered (R409), or one in a
collective (R359). Dirty granules are written back (log entry 25). -/
def State.resetCluster (s : State) (n : Nat) (hang : Bool) : State :=
  let mine := s.ops.filter (fun o => (o.cluster == n || (o.core.map (fun k => k / 16)) == some n) && !outsideCluster o)
  let plan (o : Op) : Bool := match s.ctx o.ctx with
    | some x => x.planned
    | none => false
  let keep (o : Op) : Bool := hang && !plan o && mayRepeat o.desc
  let suspects := if hang then (upto 64).filter (fun c => mine.any (fun o => o.ctx == c && !plan o)) else []
  let s := (mine.filter keep).foldl (fun (t : State) o => (t.releaseGrants o).putOp { o.again with core := none, phase := .restart, rgrants := [] }) s
  let s := (mine.filter (fun o => !keep o)).foldl (fun (t : State) o => t.abortOp o) s
  let s : State := { s with
    batches := s.batches.filter (fun b => b.cluster != n)
    sun := { s.sun with suspects := if hang then suspects else s.sun.suspects } }
  let s := (upto 16).foldl (fun (t : State) c => t.resetCore (16 * n + c)) s
  let s := s.poisonWatch (s.flushLines (whoCluster n) n true (fun _ => true))
  let s := s.modCluster n (fun k =>
    { k with
      resetting := true })
  let s := if s.plansOn n || s.collsOn n then s.stepDelayed else s
  s.settleAll

/-- A Pruner reset begins (R385, R501): every command with an unfinished share on it ends, one that has yet to come to its last phase
there among them. -/
def State.resetPruner (s : State) (n : Nat) : State :=
  let due (p : PruneCmd) : Bool := match s.op? p.ctx p.idx with
    | some o => p.dueAt o.desc n
    | none => false
  let s := ((s.pruneQ.filter due).foldl (fun (t : State) p => t.prEnd p stAbortedReset) s).exchangesGo
  s.modHbm n (fun h => { h with prnReset := true })

/-! ### Device resets -/

/-- Whether a command's record can still be written when the device resets: its ring engine runs. -/
def State.endAll (s : State) : State :=
  (s.ops.filter (fun o => (s.proc (3 + o.cluster)).runs)).foldl (fun (t : State) o => t.endOp o stAbortedReset) s

/-- What of memory a device reset keeps: HBM with its poison at a warm reset (R432), nothing at a cold one (R431). The on-die
stores are as at power-on (log entry 4). -/
def Memory.kept (m : Memory) (cold : Bool) : Memory :=
  if cold then { cells := [], poison := [] }
  else { cells := m.cells.filter (fun c => decide (c.1 < hbmEnd)), poison := m.poison.filter (fun g => decide (32 * g < hbmEnd)) }

/-- Whether a wide counter or mailbox key belongs to an HBM or LINK block. -/
def perUnit (block : Nat) : Bool := decide (0x200_0000 ≤ block)

/-- An AON block, whose wide mailbox banks keep their captures (chapter 20). -/
def aonBlock (block : Nat) : Bool := [blkTop, blkPwr, blkSec, blkSun, blkFrost].contains block

/-- The key of a wide mailbox bank: its block and the bank. -/
def bankKey (block bank : Nat) : Nat := block * 4 + bank

/-- Answer the request that the mailbox has in progress as a DMP crash does (R471, R484). -/
def State.respond (s : State) (code : Nat) (seq : W32) (st : Byte) (reason : Nat) (payload : List Byte) : State :=
  let hdr := bytesOf 2 code ++ [st, 0] ++ bytesOf 4 seq.toNat ++ bytesOf 4 payload.length ++ bytesOf 2 reason ++ [0, 0]
  let cells := ((hdr ++ payload).zipIdx).foldl (fun (c : List Host.Cell) e => sparsePut 0 c e.2 e.1) s.mbx.resp
  ({ s with mbx := { s.mbx with resp := cells, busy := false, done := true, status := st, reason := BitVec.ofNat 16 reason, held := none, waitSec := none } }).msix 64

/-- A request in progress is answered SCHED_RESTART, reason DMP_RESTART: one held for the DMP, or a REGION_SET that waits. -/
def State.withdrawRequest (s : State) : State :=
  let s := match s.mbx.held with
    | some (code, seq) => s.respond code seq stSchedRestart reDmpRestart []
    | none => s
  (upto 64).foldl (fun (t : State) c =>
    match t.ctx c with
    | some x => match x.pending with
      | some p => (t.respond 0x23 p.seq stSchedRestart reDmpRestart []).modCtx c (fun x => { x with pending := none })
      | none => t
    | none => t) s

/-- Everything outside AON stops and is as at reset (R501): the commands that can be completed are; peers are told (R329);
the frosts end (R515); HBM is kept in self-refresh at a warm reset. -/
def State.quiesce (s : State) (cold : Bool) : State :=
  let s := ((s.resetNotices).endAll).withdrawRequest
  let r := State.reset
  let f := s.timeFree
  let f := if s.pcie.l0 then f.count blkPcie 0x04 1 else f
  { f with
    start := { s.start with
      stage := 0, halted := s.start.halted && s.start.failCode == 0x0A
      failCode := if s.start.failCode = 0x0A then 0x0A else 0, failDet := if s.start.failCode = 0x0A then s.start.failDet else 0, drecNew := false, fallback := false, chipId := 0xFFFF
      trainedOnce := s.start.trainedOnce && !cold }
    pwr := { s.pwr with state := .active, step := 0, byGroup := false, enabling := [], shutting := [], runnerWake := none }
    sec := { s.sec with rollback := false, rpmcFail := false, certInv := false, pufFail := false, idReady := false, serial := 0
                        ownerDig := 0, mlog := [], mdig := 0, lost := 0, certCache := [] }
    mbx := { s.mbx with opened := false, priv := false }
    sun := { s.sun with recov := none, replay := none, suspects := [] }
    frost := { s.frost with holders := 0, phase := .running, settled := false, held := [] }
    fw := { r.fw with
      procs := (r.fw.procs.set 0 { runs := true, slot := 0, beatT := s.nowN, lastRun := none }).set 1
        { runs := true, slot := 0, beatT := s.nowN, lastRun := none }
      dumpNum := s.fw.dumpNum
      dumps := if cold then [] else s.fw.dumps
      aonDump := s.fw.aonDump
      dumpWait := s.fw.dumpWait }
    group := r.group
    regs := { r.regs with topEvent := s.regs.topEvent, fixCount := s.regs.fixCount, voteStat := s.regs.voteStat, accessErr := s.regs.accessErr }
    votes := { s.votes with debugLock := r.votes.debugLock, swap := r.votes.swap, linkEnable := r.votes.linkEnable, linkAllowX2 := r.votes.linkAllowX2 }
    pcie := { r.pcie with perst := s.pcie.perst, training := !s.pcie.perst }
    wide := if cold then f.wide.filter (fun e => !perUnit (e.1 / 256)) else f.wide
    perf := []
    banks := s.banks.filter (fun b => aonBlock (b.1 / 4))
    mem := s.mem.kept cold
    caches := r.caches
    clusters := r.clusters
    cores := r.cores
    hbms := s.hbms.map (fun (h : Hbm) => { Hbm.reset with trained := h.trained && !cold, selfRefresh := h.trained && !cold, tempC := h.tempC })
    links := r.links
    ports := r.ports
    routes := []
    sets := []
    ctxs := r.ctxs
    ops := []
    colls := []
    collHeld := []
    collOver := []
    pruneQ := []
    slots := []
    batches := []
    posted := []
    adderQ := []
    coreWait := [] }

/-- A device reset begins: warm, or cold where there is no trained HBM to keep (R432). -/
def State.deviceReset (s : State) (cold : Bool) (why : Nat) (esc : Bool) : State :=
  let cold := cold || !s.start.trainedOnce
  let s := s.quiesce cold
  let s := s.count blkSun (if cold then 0x0B else 0x0A) 1
  { s with
    start := { s.start with resetWhy := why }
    sun := { s.sun with
      recov := some { unit := if cold then .cold else .warm, at_ := s.nowN, esc := esc }
      lastKind := if cold then 7 else 6
      lastUnit := 0 } }

/-- Causes of trace point 0x7011. -/
def fcReserve : Nat := 1
def fcTag : Nat := 2
def fcImage : Nat := 3
def fcRegulator : Nat := 4
def fcUnder : Nat := 5
def fcHbmRef : Nat := 6
def fcMachinery : Nat := 7

/-- An uncorrected-fatal error is taken (R493, R494); a parked device does not restart on its own (R507). -/
def State.fatal (s : State) (cause unit : Nat) : State :=
  let s := s.logEntry srcAon sevFatal 0x7011 [cause, unit, 0, 0]
  if s.sun.parked then s else s.deviceReset (cause == fcUnder || cause == fcMachinery) whyFatal false

/-- TOP_START_STAT (R414). -/
def State.startStat (s : State) : Nat :=
  fieldVal s.start.failCode.toNat 24 + fieldVal s.start.failDet.toNat 16 + fieldVal (bnat s.start.pseqIgn) 12
  + fieldVal (bnat s.start.pseqExt) 11 + fieldVal (bnat s.start.drecNew) 10 + fieldVal (bnat s.start.fallback) 9
  + fieldVal (s.start.runSlot % 2) 8 + fieldVal (bnat s.start.halted) 2 + s.start.stage % 4

/-- The halt of a start (R414, R418, R424): HALTED with its code, at the stage reached. -/
def State.halt (s : State) (code detail : Nat) : State :=
  let s : State := { s with start := { s.start with halted := true, failCode := BitVec.ofNat 8 code, failDet := BitVec.ofNat 8 detail } }
  s.logEntry srcAon sevError 0x0002 [s.start.stage, code, detail, s.startStat]

/-- Park the device (R507). -/
def State.park (s : State) : State :=
  let k := s.sun.lastKind
  let u := s.sun.lastUnit
  let s := (s.quiesce false).count blkSun 0x10 1
  let s : State := { s with
    start := { s.start with halted := true }
    sun := { s.sun with parked := true, queue := [] } }
  s.logEntry srcAon sevFatal 0x7010 [s.sun.escT.length, k, u, 0]

/-! ### Taking a reset, escalation (R500, R502, R503) -/

/-- A reset of a unit begins and is the running recovery (R500). -/
def State.startReset (s : State) (u : ResetUnit) (esc hang : Bool) (why : Nat) : State :=
  let s : State := { s with sun := { s.sun with recov := some { unit := u, at_ := s.nowN, esc := esc }, lastKind := unitKind u, lastUnit := unitIndex u } }
  match u with
  | .core k => ((s.count blkSun 0x06 1).resetCore k).settleAll
  | .cluster n => (s.count blkSun 0x07 1).resetCluster n hang
  | .port n => (s.count blkSun 0x08 1).linkDown n .down dcLocalReset
  | .pruner n => (s.count blkSun 0x09 1).resetPruner n
  | .proc _ => s
  | .warm => s.deviceReset false why esc
  | .cold => s.deviceReset true why esc

/-- The next larger reset (R502): none above a device cold reset. -/
def larger : ResetUnit → Option ResetUnit
  | .core k => some (.cluster ⟨k.val / 16, by omega⟩)
  | .cluster _ => some .warm
  | .port _ => some .warm
  | .pruner _ => some .warm
  | .proc _ => some .warm
  | .warm => some .cold
  | .cold => none

/-- Escalations of the last 10 minutes (R503). -/
def State.recentEsc (s : State) : List Nat := s.sun.escT.filter (fun t => decide (s.nowN < t + 600000000000))

/-- Escalate from one reset to another, counted; the fourth within 10 minutes parks instead (R502, R503). -/
def State.escalateTo (s : State) (u v : ResetUnit) : State :=
  let es := s.recentEsc ++ [s.nowN]
  if s.sun.parked then { s with sun := { s.sun with recov := none } } else
  let s := ({ s with sun := { s.sun with escT := es } }).sunEvent evEscalated
  let s := (s.count blkSun 0x0C 1).logEntry srcAon sevError 0x7004 [unitKind u, unitKind v, es.length, 0]
  if 4 ≤ es.length then s.park else s.startReset v true true whyEscalation

/-- Escalate one level (R502): a cold reset parks. -/
def State.escalate (s : State) (u : ResetUnit) : State :=
  match larger u with
  | some v => s.escalateTo u v
  | none => s.park

/-! ### Faults (R495, R505) -/

/-- A fault that arrives during a recovery (R505). The DMP, which has device-level recovery (R464), is taken as the processor
that runs it (log entry 26). -/
def State.secondFault (s : State) (r : Recovery) (site : FaultSite) : State :=
  let s := s.sunEvent evSecondFault
  match site with
  | .machinery => (s.sunEvent evMachinery).escalateTo r.unit .cold
  | .fatal cause => s.fatal cause 0
  | .unit u =>
    if u = .proc .dmp ∧ r.unit ≠ .proc .dmp then (s.sunEvent evMachinery).escalateTo r.unit .cold
    else if covers r.unit u then s.escalate r.unit
    else ({ s with sun := { s.sun with queue := s.sun.queue ++ [FaultSite.unit u] } }).count blkSun 0x0F 1

/-- A fault of a unit: its reset, or a second fault. -/
def State.fault (s : State) (u : ResetUnit) : State :=
  match s.sun.recov with
  | none => s.startReset u false true whyFatal
  | some r => s.secondFault r (.unit u)

/-- The HANG bit of a hung unit's own event register. -/
def State.hangEvent (s : State) : ResetUnit → State
  | .core k => s.modCore k (fun c => { c with event := setBits c.event 1 })
  | .cluster n => s.modCluster n (fun c => { c with event := setBits c.event 1 })
  | _ => s

/-- What records a unit found hung: counters, SUN_EVENT, SUN_STAT, the trace (R495, R516, R606). -/
def State.noteHang (s : State) (u : ResetUnit) : State :=
  let w := s.window u / 1000000
  let s := ((s.count blkSun (unitKind u - 1) 1).setCounter blkSun 0x11 s.nowN).sunEvent evHang
  let s : State := { s with sun := { s.sun with lastKind := unitKind u, lastUnit := unitIndex u } }
  (s.hangEvent u).logEntry srcAon sevError 0x7001 [unitKind u, unitIndex u, w, 0]

/-- A unit is found hung: recorded, and its recovery begins (R495, R502). -/
def State.hang (s : State) (u : ResetUnit) : State := (s.noteHang u).fault u

/-- Faults that waited for the end of a recovery, in order (R505, R506): those that its reset has covered are discarded and
counted; the first of the others is handled. -/
def State.nextFault (s : State) (done : ResetUnit) : List FaultSite → State
  | [] => { s with sun := { s.sun with queue := [] } }
  | .unit u :: t =>
    if covers done u then State.nextFault (s.count blkSun 0x0F 1) done t
    else
      let asked := match u with
        | .cluster n => (s.votes.resetCluster.vote 0).getLsbD n.val
        | _ => false
      ({ s with sun := { s.sun with queue := t } }).startReset u false (!asked) whyFatal
  | _ :: t => State.nextFault s done t

/-- The bits of TOP_RESET_CTL that a reset's completion clears (R572). -/
def State.clearResetCtl (s : State) (u : ResetUnit) : State :=
  match u with
  | .cluster n => { s with votes := { s.votes with resetCluster := .of (s.votes.resetCluster.vote 0 &&& ~~~(1#16 <<< n.val)) } }
  | .warm => { s with votes := { s.votes with resetCluster := .of 0, resetWarm := .of 0, resetCold := .of 0 } }
  | .cold => { s with votes := { s.votes with resetCluster := .of 0, resetWarm := .of 0, resetCold := .of 0 } }
  | _ => s

/-- The end of a recovery: logged, its request cleared, the next fault handled (R500, R505). -/
def State.endRecovery (s : State) (r : Recovery) : State :=
  let s := s.logEntry srcAon sevWarn 0x7003 [unitKind r.unit, unitIndex r.unit, (s.nowN - r.at_) / 1000, bnat r.esc]
  let s := ({ s with sun := { s.sun with recov := none } }).clearResetCtl r.unit
  s.nextFault r.unit s.sun.queue

/-! ### Retirement (R28 to R31) -/

/-- Whether the retirement list exceeds a limit of R30. -/
def retireExceeds (l : List Nat) : Bool :=
  decide (8 < l.length) || (upto 8).any (fun n => decide (4 < (l.filter (fun k => k / 16 == n)).length))

/-- End everything that reaches other members, with GROUP_ABSENT (R31): collectives, exchanges, remote transfers, global
SIGNALs, fences that wait for remote writes. -/
def State.groupAbsentAll (s : State) : State :=
  let s := s.colls.foldl (fun (t : State) c => t.collEnd c stGroupAbsent) s
  let s := (s.pruneQ.filter (fun p => p.phase == .exchange)).foldl (fun (t : State) p => t.exchangeEnd p stGroupAbsent) s
  let far (o : Op) : Bool :=
    (dOpcode o.desc == 0x20 && !(s.remoteSides o).isEmpty) || (dOpcode o.desc == 0x04 && !o.reads.isEmpty)
    || (dOpcode o.desc == 0x06 && o.phase == .acting)
  let s := (s.ops.filter far).foldl (fun (t : State) o => (t.releaseGrants o).finish (o.raise stGroupAbsent)) s
  ({ s.resumeReads with posted := [] }).settleAll

/-- The links of a device outside its group carry GROUP and ATTEST messages only (R31, R314). -/
def State.unadmit (s : State) : State := { s with links := s.links.map (fun (l : Link) => { l with admitted := false }) }

/-- A device beyond the limits of retirement takes no part in its group (R30, R31): REFUSED with RETIREMENT, so that it sends no JOIN and
nothing admits it; reported through the management mailbox. -/
def State.keptOut (s : State) : State :=
  let s := s.mailReport mrRetire s.retired.length
  let s := if s.group.cfg.isSome then s.setGroup .refused else s
  s.modGroup (fun g => { g with reason := if g.cfg.isSome then 7 else g.reason, formed := false, role := .none })

/-- A core that fails its self-test is retired (R28, R29, R31): recorded where the list has room, else RETIRE_OVERFLOW after
Stage 3. Beyond the limits, a device at Stage 2 stays there (R30), and one at Stage 3 leaves its group. -/
def State.retireCore (s : State) (k : Nat) : State :=
  if (s.core k).retired then s
  else
    let s := s.modCore k (fun c => { c with retired := true, inService := false, resetting := false, event := setBits c.event 4 })
    let s := s.modCluster (k / 16) (fun c => { c with event := setBits c.event 4 })
    let all := s.retired ++ [k]
    let tooMany := retireExceeds all
    let room := decide (s.retired.length < 8)
    let s : State := if s.retired.contains k then s
      else if room then ({ s with retired := all }).writeDrec
      else if 3 ≤ s.start.stage then ({ s with overflow := true }).writeDrec
      else s
    let s := s.logEntry srcDmp sevError 0x7006 [k, s.retired.length, bnat s.overflow, 0]
    if !tooMany ∨ s.start.stage < 2 then s
    else
      let s : State := if s.start.stage = 2 then { s with start := { s.start with failCode := 8 } } else s
      (((s.report rpRetirement []).groupAbsentAll).unadmit).keptOut.timeFree

/-! ### Suspects (R504) -/

/-- Quarantine a context (R232, R504). -/
def State.quarantine (s : State) (c : Nat) : State :=
  ((s.endContext c stQuarantined .quarantined).count blkSun 0x0D 1).sunEvent evQuarantine

/-- The replay has ended: windows and issue are restored; the member is ready again (R504, R409). -/
def State.endReplay (s : State) (n : Nat) : State :=
  let s : State := { s with sun := { s.sun with replay := none, suspects := [] } }
  (s.modCluster n (fun k => { k with issueHeld := false })).readyAfter n

/-- Take the next suspect (R504): cleared untested, quarantined at the second time within 10 minutes, or replayed alone. -/
def State.nextSuspect (s : State) (n : Nat) : List Nat → State
  | [] => s.endReplay n
  | c :: t =>
    let held := s.ops.filter (fun o => o.ctx == c && o.phase == .restart)
    let gone := match s.ctx c with
      | some x => x.status == CtxStatus.aborted || x.status == CtxStatus.quarantined
      | none => true
    if gone then State.nextSuspect s n t
    else if held.isEmpty then
      let s := s.count blkSun 0x0E 1
      let before := s.sun.untested.any (fun e => e.2.1 == c && decide (s.nowN ≤ e.2.2 + 600000000000))
      let s := if before then s.quarantine c
               else { s with sun := { s.sun with untested := s.sun.untested ++ [(n, c, s.nowN)] } }
      State.nextSuspect s n t
    else
      let s : State := { s with sun := { s.sun with replay := some { cluster := n, ctx := some c, at_ := s.nowN, rest := t }, suspects := [] } }
      s.lifted n (fun u => held.foldl (fun (u : State) (o : Op) => (u.dropOp c o.idx).reissue o ((o.core.getD 128))) u)

end Sys2Proof.Machine
end

