-- ==== Sys2Proof/Machine/Recovery.lean ====
section
/-! DEFINITION. The events of hangs, resets and recovery (R495 to R506): a hang is judged only outside a Frost (R498), in a unit
with work offered whose last progress that the model sees lies a window back. In a replay, a hang is the replay's end (R504). -/

namespace Sys2Proof.Machine

open Sys2Proof

/-- Whether the Sundial judges units (R498). -/
def State.judges (s : State) : Bool := s.frost.phase == .running && !s.sun.parked

/-- A transfer of host memory whose source has not all come waits on the host (R189, R190, R496). -/
def waitsHost (o : Op) : Bool := hostTransfer o && decide (o.bytes.length < (dmaSrc o).bytes)

/-- The transfer that a MATMUL or VEC with BIND waits for, while it is in progress (R209). -/
def State.boundTo (s : State) (o : Op) : Option Op :=
  if dOpcode o.desc = 0x10 ∧ mfBind o.desc then s.bound? o (dBindIdx o.desc)
  else if dOpcode o.desc = 0x18 ∧ vBind o.desc then s.bound? o (vBindIdx o.desc)
  else none

/-- Whether an operation waits only on input from outside the device (R189, R496): a host transfer, or an operation with BIND whose target
is one. -/
def State.outside (s : State) (o : Op) : Bool :=
  waitsHost o || (match s.boundTo o with
    | some t => waitsHost t
    | none => false)

/-- Whether a core has work offered: a command issued to it that is not complete (R495, R496). -/
def State.coreWork (s : State) (k : Nat) : Bool :=
  s.batches.any (fun b => b.core == some k) || (s.opsOnCore k).any (fun o => !s.outside o)

/-- The last progress of a core that the model sees. -/
def State.coreProg (s : State) (k : Nat) : Nat := (s.opsOnCore k).foldl (fun t o => max t o.progT) (s.core k).progT

/-- A core makes no progress for one window (R495). -/
def execCoreHang (core : Fin 128) (s : State) : Done :=
  .next (if s.judges && !s.replaying (core.val / 16) && !(s.core core).resetting && s.coreWork core
      && decide (s.coreProg core + s.window (.core core) ≤ s.nowN) then s.hang (.core core) else s)

/-- Whether a cluster has work offered (R495, R499): an entry covered by SQ_TAIL whose issue nothing holds. -/
def State.clusterWork (s : State) (n : Nat) : Bool :=
  (upto 64).any (fun c => match s.ctx c with
    | some x => x.clusters.getLsbD n && x.issueWait.isNone && (s.nextEntry c).isSome
    | none => false)

/-- A cluster makes no progress for one window (R495). -/
def execClusterHang (n : Fin 8) (s : State) : Done :=
  .next (if s.judges && !s.replaying n && s.clusterUp n && s.clusterWork n
      && decide ((s.cluster n).progT + s.window (.cluster n) ≤ s.nowN) then s.hang (.cluster n) else s)

/-- A port whose ACK_SEQ does not advance for one window while it holds flits (R495). -/
def execRunnerHang (n : Fin 24) (s : State) : Done :=
  .next (if s.judges && (s.link n).state.live && !(s.link n).replay.isEmpty
      && decide ((s.link n).ackProgT + s.window (.port n) ≤ s.nowN) then s.hang (.port n) else s)

/-- A Pruner with a share that is neither waiting for its exchange nor paused makes no progress for one window (R385). -/
def execPrunerHang (n : Fin 8) (s : State) : Done :=
  .next (if s.judges && !(s.hbm n).prnReset && (s.prNext n s.pruneQ []).isSome
      && decide ((s.hbm n).prnProgT + s.window (.pruner n) ≤ s.nowN) then s.hang (.pruner n) else s)

/-- A transfer that holds a partly received burst makes no progress for 1 s: reported once, nothing is reset (R496). -/
def execBurstGap (c : Fin 64) (idx : W32) (s : State) : Done :=
  .next (match s.op? c idx with
    | some o =>
      if s.judges && waitsHost o && !o.bytes.isEmpty && !o.gapSaid && decide (o.progT + 1000000000 ≤ s.nowN) then
        let s := ((s.putOp { o with gapSaid := true }).sunEvent evBurstGap).count blkSun 0x05 1
        s.logEntry srcAon sevWarn 0x7002 [c, o.fill, o.fill / 2 ^ 32, o.core.getD 0]
      else s
    | none => s)

/-- Every 1 ms the Sundial checks its counters against their shadow copies (R505): a mismatch is a fault in the recovery
machinery, which leads to a device cold reset (R494). -/
def execSundialSelfCheck (mismatch : Bool) (s : State) : Done :=
  .next (if !mismatch then s
    else match s.sun.recov with
      | some r => s.secondFault r .machinery
      | none => (s.sunEvent evMachinery).fatal fcMachinery 0)

/-- A reset is taken: at once, or as a second fault while a recovery runs. -/
def State.takeReset (s : State) (u : ResetUnit) : State :=
  match s.sun.recov with
  | none => s.startReset u false false whyFatal
  | some r => s.secondFault r (.unit u)

/-- A core reset is taken (R500, R501). -/
def execCoreReset (core : Fin 128) (s : State) : Done := .next (s.takeReset (.core core))

/-- A cluster reset is taken (R500, R501). -/
def execClusterReset (n : Fin 8) (s : State) : Done := .next (s.takeReset (.cluster n))

/-- A port reset is taken (R500, R501): the link goes DOWN with cause LOCAL_RESET, its collectives end with PEER_LOST. -/
def execPortReset (n : Fin 24) (s : State) : Done := .next (s.takeReset (.port n))

/-- A Pruner reset is taken (R385, R500, R501). -/
def execPrunerReset (n : Fin 8) (s : State) : Done := .next (s.takeReset (.pruner n))

/-- A device reset for an uncorrected-fatal error; a parked device does not restart on its own (R507). -/
def State.fatalAs (s : State) (cause : Nat) (cold : Bool) : State :=
  let s := s.logEntry srcAon sevFatal 0x7011 [cause, 0, 0, 0]
  if s.sun.parked then s else s.deviceReset cold whyFatal false

/-- A device warm reset for an uncorrected-fatal error (R432, R493, R494, R501). -/
def execDeviceWarmReset (fatalCause : Nat) (s : State) : Done :=
  .next (s.fatalAs fatalCause false)

/-- A device cold reset for an uncorrected-fatal error of R494 (R431, R501). -/
def execDeviceColdReset (fatalCause : Nat) (s : State) : Done :=
  .next (s.fatalAs fatalCause true)

/-! ### Completion (R500, R504, R505) -/

/-- A core's self-test after a reset that covered it: back in service, or retired (R28). -/
def State.coreBack (s : State) (fails : List (Fin 128)) (k : Nat) : State :=
  if fails.any (fun f => f.val == k) then s.retireCore k
  else s.modCore k (fun c => { c with resetting := false })

/-- Whether a reset has reached its complete state (R500), as far as the state shows it; the self-tests are the event's. -/
def State.resetReached (s : State) : ResetUnit → Bool
  | .port n => (s.link n).state != .down
  | .proc p => (s.proc (procNum p)).runs
  | .warm => decide (2 ≤ s.start.stage) || s.start.halted
  | .cold => decide (2 ≤ s.start.stage) || s.start.halted
  | _ => true

/-- What a reset's completion does to its unit. -/
def State.unitBack (s : State) (u : ResetUnit) (fails : List (Fin 128)) : State :=
  match u with
  | .core k => (s.coreBack fails k).modCore k (fun c => { c with event := setBits c.event 2 })
  | .cluster n =>
    let s := (upto 16).foldl (fun (t : State) c => t.coreBack fails (16 * n.val + c)) s
    s.modCluster n (fun k => { k with resetting := false, progT := s.nowN, event := setBits k.event 2 })
  | .pruner n => s.modHbm n (fun h => { h with prnReset := false, prnProgT := s.nowN })
  | _ => s

/-- What follows a cluster reset: the replay of its suspects, with its other issue held (R504), or readiness (R409). -/
def State.afterCluster (s : State) (n : Nat) : State :=
  match s.sun.replay with
  | some r => if r.cluster = n then s.nextSuspect n r.rest else s
  | none =>
    if s.sun.suspects.isEmpty then s.readyAfter n
    else
      let l := s.sun.suspects
      let s : State := { s with sun := { s.sun with replay := some { cluster := n, ctx := none, at_ := s.nowN, rest := l }, suspects := [] } }
      (s.modCluster n (fun k => { k with issueHeld := true })).nextSuspect n l

/-- A reset reaches its complete state; the next queued fault is handled (R500, R505, R506). -/
def execResetComplete (u : ResetUnit) (selftestFails : List (Fin 128)) (s : State) : Done :=
  .next (match s.sun.recov with
    | none => s
    | some r =>
      if r.unit ≠ u ∨ !s.resetReached u then s
      else
        let s := (s.unitBack u selftestFails).endRecovery r
        match u with
        | .cluster n => s.afterCluster n
        | _ => s)

/-- A reset or restart is not complete within its completion window: it escalates one level, or parks (R502, R503). A reset
that has reached its complete state has not run out of its window. -/
def execResetWindowExpiry (u : ResetUnit) (s : State) : Done :=
  .next (match s.sun.recov with
    | none => s
    | some r =>
      let reached := match u with
        | .core _ => false
        | .cluster _ => false
        | .pruner _ => false
        | _ => s.resetReached u
      if r.unit ≠ u ∨ reached = true ∨ s.nowN < r.at_ + s.window u then s else s.escalate u)

/-- A fault arrives during a recovery (R505). -/
def execSecondFault (site : FaultSite) (s : State) : Done :=
  .next (match s.sun.recov with
    | none => s
    | some r => s.secondFault r site)

/-- The unit that a hang in a replay is recorded for (R504): the first core of the cluster that has work and has made no progress
for the window, or else the cluster (log entry 11). -/
def State.replayHung (s : State) (n : Fin 8) : ResetUnit :=
  match (upto 16).find? (fun k => s.coreWork (16 * n + k)
      && decide (s.coreProg (16 * n + k) + s.window (.cluster n) ≤ s.nowN)) with
  | some k => .core (Fin.ofNat 128 (16 * n + k))
  | none => .cluster n

/-- A suspect's replay ends (R504): cleared when every held command is complete or 100 ms have passed; quarantined at a hang,
after which the cluster is reset again, as part of this recovery. -/
def execSuspectReplayEnd (n : Fin 8) (how : ReplayEnd) (s : State) : Done :=
  .next (match s.sun.replay with
    | none => s
    | some r =>
      match r.ctx with
      | none => s
      | some c =>
        let left := s.ops.any (fun o => o.ctx == c && o.rflags.getLsbD 5)
        if r.cluster ≠ n then s
        else match how with
          | .completed => if left then s else s.nextSuspect n r.rest
          | .elapsed => if s.nowN < r.at_ + 100000000 then s else s.nextSuspect n r.rest
          | .hang =>
            if !left ∨ s.sun.recov.isSome ∨ s.nowN < r.at_ + 10000000 then s
            else
              let s := (s.noteHang (s.replayHung n)).quarantine c
              let s : State := { s with sun := { s.sun with replay := some { r with ctx := none } } }
              s.startReset (.cluster n) false false whyFatal)

/-- A core fails its self-test (R28 to R31): during a reset that covers it, or in the work toward Stage 2. -/
def execCoreSelftestFail (core : Fin 128) (s : State) : Done :=
  .next (if (s.core core).resetting ∨ s.start.stage = 1 then s.retireCore core else s)

end Sys2Proof.Machine
end

