-- ==== Sys2Proof/Machine/Power.lean ====
section
/-! DEFINITION. Power, thermal and supply behaviour (R439 to R463): modes and regulator steps, Doze and Rest, shed stages, the
thermal limit and trip, enables held during a shut-down. A regulator request carries a set point in mV for VDD_CORE, and 1 for
on or 0 for off for every other rail. -/

namespace Sys2Proof.Machine

open Sys2Proof

/-! ### What PWR_STAT and THERM_STAT show -/

def PState.code : PState → Nat
  | .active => 0
  | .enterDoze => 1
  | .doze => 2
  | .leaveDoze => 3
  | .enterRest => 4
  | .rest => 5
  | .leaveRest => 6

/-- The effective mode (R439): 0 Full, 1 Steady, 2 Cool; Cool before Stage 1. -/
def State.modeEff (s : State) : Nat :=
  max (max s.modeReq s.pwr.limit) (if s.pwr.fwForced || decide (s.start.stage < 1) then 2 else 0)

/-- Whether a power or thermal emergency is in force (R461). -/
def State.emergency (s : State) : Bool :=
  decide (1 ≤ s.pwr.shed) || decide (s.modeReq < s.pwr.limit) || s.therm.overTj || s.pwr.reqs.any (fun r => decide (1 ≤ r.retries))

/-- PWR_STAT. -/
def State.pwrStat (s : State) : Nat :=
  fieldVal s.pwr.shed 24 + fieldVal (bnat s.emergency) 15 + fieldVal (bnat s.pwr.fwForced) 14
  + fieldVal (bnat (decide (s.modeReq < s.pwr.limit))) 13 + fieldVal (bnat s.pwr.regFault) 12 + fieldVal (bnat s.pwr.uvSeen) 11
  + fieldVal (bnat s.pwr.shedSeen) 10 + fieldVal (bnat (!s.pwr.enabling.isEmpty)) 9 + fieldVal s.modeEff 6
  + fieldVal s.pwr.limit 4 + s.pwr.state.code

/-- THERM_STAT. -/
def State.thermStat (s : State) : Nat :=
  fieldVal (satAt 255 s.therm.tj) 16 + fieldVal s.therm.site 8 + fieldVal (bnat s.therm.tripped) 3 + fieldVal (bnat s.therm.overTj) 2
  + fieldVal (bnat s.therm.up) 1 + bnat s.therm.downEv

/-! ### Regulators (R440, R442) -/

/-- The VDD_CORE set point of a mode in mV. -/
def setPoint : Nat → Nat
  | 0 => 750
  | 1 => 700
  | _ => 620

/-- The set point VDD_CORE is to have: Cool from step 5 of the Doze entry until the Doze exit is done (R448, R449). -/
def State.coreTarget (s : State) : Nat :=
  let low := match s.pwr.state with
    | .active => false
    | .enterDoze => decide (5 ≤ s.pwr.step)
    | .enterRest => decide (5 ≤ s.pwr.step)
    | _ => true
  setPoint (if low then 2 else s.modeEff)

/-- Send a request to a regulator. -/
def State.askReg (s : State) (r : Rail) (mv : Nat) : State :=
  let q : RegReq := { rail := r, mv := mv, sentAt := s.nowN, retries := 0 }
  ({ s with pwr := { s.pwr with reqs := s.pwr.reqs ++ [q] } }).emit (.regulator r mv)

/-- Send the next step of VDD_CORE, of 10 mV at most, once the last is acknowledged (R440). -/
def State.driveCore (s : State) : State :=
  let t := s.coreTarget
  let v := s.pwr.coreMv
  if !s.pwr.railsOn.contains .core || s.pwr.reqs.any (fun r => r.rail == .core) || v == t then s
  else s.askReg .core (if v < t then min t (v + 10) else max t (v - 10))

/-- What follows a change of the power state: the next step of VDD_CORE, the end of an emergency noted for a graft (R491),
vector 66 when PWR_STAT or THERM_STAT has changed (R470). -/
def State.pwrNote (old s : State) : State :=
  let s := s.driveCore
  let s : State :=
    if s.emergency then ({ s with pwr := { s.pwr with emergT := none } } : State)
    else if old.emergency then ({ s with pwr := { s.pwr with emergT := some s.nowN } } : State) else s
  if old.pwrStat ≠ s.pwrStat ∨ old.thermStat ≠ s.thermStat then s.msix 66 else s

def State.pwrDo (s : State) (f : State → State) : State := s.pwrNote (f s)

/-! ### Links for Doze, Rest and shed stage 6 (R327) -/

/-- A link goes to KEEPALIVE after its current message (R327). -/
def State.sleepLink (s : State) (n : Nat) : State :=
  if (s.link n).state ≠ .up ∨ (s.link n).evDue.any eventSleeps then s
  else (s.sendControl n false [mkEvent 0x05 [0, 0, 0, 1]]).goOn n

/-- A link in KEEPALIVE returns to UP (R327). -/
def State.wakeLink (s : State) (n : Nat) : State := if (s.link n).state = .keepalive then s.askUp n else s

def State.sleepLinks (s : State) : State := (upto 24).foldl (fun (t : State) n => t.sleepLink n) s
def State.wakeLinks (s : State) : State := (upto 24).foldl (fun (t : State) n => t.wakeLink n) s

/-- Every trained stack enters or leaves self-refresh. -/
def State.refresh (s : State) (on : Bool) : State :=
  { s with hbms := s.hbms.map (fun (h : Hbm) => { h with selfRefresh := h.trained && on }) }

/-! ### Doze and Rest: requests, refusals, aborts (R446 to R448) -/

def kindCluster : Nat := 1
def kindProc : Nat := 2
def kindRunner : Nat := 3
def kindHost : Nat := 4
def kindWake : Nat := 5

/-- Whether a context is busy (R447). -/
def State.ctxBusy (s : State) (c : Nat) : Bool := match s.ctx c with
  | some x => (x.status == .active || x.status == .frozen)
      && (x.sqHead != x.sqTail || !(s.openOps c).isEmpty || x.spaces.any (fun p => !p.groups.isEmpty))
  | none => false

/-- The lowest cluster of the contexts that a test picks. -/
def State.lowestOf (s : State) (p : Nat → Bool) : Option Nat :=
  (upto 8).find? (fun n => (upto 64).any (fun c => p c && (match s.ctx c with
    | some x => x.clusters.getLsbD n
    | none => false)))

/-- Whether a graft or a flash write is in progress: WRITING, RUNNING or TRIAL, or FLASH_LOCK open. -/
def State.flashBusy (s : State) : Bool := [1, 4, 5].contains s.fw.phase || s.votes.flashLock.vote 1 == 0

/-- The sets of the trust-ratio exchanges in progress, which are collectives (R337, R373). -/
def State.exchangeSets (s : State) : List Nat :=
  (s.pruneQ.filter (fun p => p.phase == .exchange)).filterMap (fun p => (s.op? p.ctx p.idx).map (fun o => pSet o.desc))

/-- The first row of the *Entry refusals* table that holds: the refuser's kind and index (R447). A PMP that is down refuses (R484). -/
def State.refuser (s : State) (rest byGroup : Bool) : Option (Nat × Nat) :=
  if !(s.proc 1).runs ∨ 1 ≤ s.pwr.shed ∨ s.pwr.regFault then some (kindProc, 1)
  else if s.frost.phase ≠ .running ∨ s.votes.swap.vote 0 ≠ 0 then some (kindProc, 2)
  else if s.flashBusy then some (kindProc, 0)
  else if !byGroup ∧ (s.group.state = .admitted ∨ s.group.state = .running) then some (kindProc, 2)
  else match s.lowestOf s.ctxBusy with
    | some n => some (kindCluster, n)
    | none => match if rest then s.lowestOf (fun _ => true) else none with
      | some n => some (kindCluster, n)
      | none => match (s.colls.map (fun c => c.setId) ++ s.exchangeSets).findSome? (fun id => (s.collSet id).map (fun e => e.ports.foldl min 23)) with
        | some p => some (kindRunner, p)
        | none => match if rest then none else (upto 24).find? (fun n =>
              [LinkState.train, .align, .negotiate, .retrain].contains (s.link n).state) with
          | some n => some (kindRunner, n)
          | none => if s.mbx.busy ∨ !s.pcie.l0 then some (kindHost, 0) else none

/-- Record a refusal or an abort (PWR_REFUSE, R463). -/
def State.refuse (s : State) (rest aborted : Bool) (kind idx : Nat) : State :=
  let v := fieldVal idx 16 + fieldVal kind 12 + fieldVal (if rest then 2 else 1) 8 + bnat aborted
  let s : State := { s with pwr := { s.pwr with refuse := BitVec.ofNat 32 v } }
  (s.count blkPwr ((if rest then 4 else 1) + bnat aborted) 1).setCounter blkPwr 0x06 s.nowN

/-- A request for Doze or Rest (R446, R447): refused, or the entry begins. In another state than Active it asks for nothing new. -/
def State.askState (s : State) (rest byGroup : Bool) : State :=
  if s.pwr.state ≠ .active then s
  else match s.refuser rest byGroup with
    | some (k, i) => s.refuse rest false k i
    | none => { s with pwr := { s.pwr with state := if rest then .enterRest else .enterDoze, step := 1, byGroup := byGroup } }

def State.entering (s : State) : Bool := s.pwr.state == .enterDoze || s.pwr.state == .enterRest

/-- Hold or let go the issue of every CSP. -/
def State.holdIssue (s : State) (on : Bool) : State :=
  { s with clusters := s.clusters.map (fun (k : Cluster) => { k with issueHeld := on }) }

/-- An entry is aborted before step 3 (R448): what was done is undone, the cause recorded as the refuser. -/
def State.abortEntry (s : State) (kind idx : Nat) : State :=
  let rest := s.pwr.state == .enterRest
  let s : State := { s with pwr := { s.pwr with state := .active, step := 0 } }
  (s.holdIssue false).refuse rest true kind idx

/-! ### Waking (R449 to R451, R462) -/

/-- The exit from Doze, or from Rest: the start from step 5 of the *Start events* table, the Runner rails coming on. -/
def State.leave (s : State) : State :=
  let s := s.setCounter blkPwr 0x07 s.nowN
  match s.pwr.state with
  | .doze => { s with pwr := { s.pwr with state := .leaveDoze, step := 0, clusterOn := 0 } }
  | .rest =>
    let s : State := { s with pwr := { s.pwr with state := .leaveRest, step := 0 } }
    (s.askReg .runA 1).askReg .runH 1
  | _ => s

/-- A wake with its PWR_REFUSE index (R448, R451, R462): none in Active; an abort before step 3, held from then on. -/
def State.wakeUp (s : State) (idx : Nat) : State :=
  match s.pwr.state with
  | .enterDoze => if s.pwr.step < 2 then s.abortEntry kindWake idx else s.holdEnable .clusterSwitch
  | .enterRest => if s.pwr.step < 2 then s.abortEntry kindWake idx else s.holdEnable .runnerRails
  | .doze => s.leave
  | .rest => s.leave
  | _ => s

/-- Whether a wake source is enabled, and for a Runner whether the state is one it wakes (R451). -/
def State.wakeOn (s : State) : WakeSource → Bool
  | .pin n => s.pwr.wakeCfg.getLsbD (4 * n.val)
  | .pcie => s.pwr.wakeCfg.getLsbD 16
  | .runner _ => s.pwr.wakeCfg.getLsbD 17 && (s.pwr.state == .enterDoze || s.pwr.state == .doze)

/-- A wake source as PWR_REFUSE.INDEX. -/
def wakeIndex : WakeSource → Nat
  | .pin n => n.val
  | .pcie => 0x10
  | .runner n => 0x20 + n.val

def State.wake (s : State) (w : WakeSource) : State := if s.wakeOn w then s.pwrDo (fun t => t.wakeUp (wakeIndex w)) else s

/-- A wake source acts (R451): for a level-sensed pin, also when it is at its active level as an entry is accepted. -/
def execWake (src : WakeSource) (s : State) : Done := .next (s.wake src)

/-- A doorbell write aborts an entry before step 3, and is a PCIe wake (R448, R451). -/
def State.doorbellWake (s : State) : State :=
  if s.entering ∧ s.pwr.step < 2 then s.pwrDo (fun t => t.abortEntry kindWake 0x10) else s.wake .pcie

/-- REQ 0b11 outside a trip (R446): an exit request, which PCIE_WAKE does not gate. -/
def State.askActive (s : State) : State := s.pwrDo (fun t => t.wakeUp 0x10)

/-! ### The entry into Doze and Rest -/

/-- One step of the Doze entry (R448): `step` is the last that has finished; its successor has begun. -/
def State.dozeIn (s : State) : State :=
  let nx (t : State) : State := { t with pwr := { t.pwr with step := t.pwr.step + 1 } }
  match s.pwr.step with
  | 1 =>
    match s.refuser (s.pwr.state == .enterRest) s.pwr.byGroup with
    | some (k, i) => s.abortEntry k i
    | none =>
      let t := s.poisonWatch ((upto 8).foldl (fun (t : State) n => t.flushLines (whoCluster n) n true (fun _ => true)) (s.holdIssue true))
      let t : State := { t with pwr := { t.pwr with drainT := t.nowN } }
      (nx t).beginShut (if s.pwr.state = .enterRest then .runnerRails else .clusterSwitch)
  | 2 => nx { s with clusters := s.clusters.map (fun (k : Cluster) => { k with switchOff := true }) }
  | 3 => nx (s.refresh true)
  | 4 => nx s.sleepLinks
  | 5 =>
    if s.pwr.coreMv ≠ setPoint 2 then s
    else if s.pwr.state = .enterRest then nx s
    else
      let (held, t) := s.endShut .clusterSwitch
      let t : State := { (t.count blkPwr 0x00 1) with pwr := { t.pwr with state := .doze, step := 0 } }
      if held then t.leave else t
  | _ => s

def execDozeEntryStep (s : State) : Done := .next (if s.entering && (s.proc 1).runs then s.pwrDo State.dozeIn else s)

/-- A drain not finished 100 us after it began is abandoned (R445, R448): the drain belongs to step 3, so it ends the entry before that
step's switches turn off; its refuser is the cluster. -/
def execDrainAbandon (s : State) : Done :=
  .next (if s.entering ∧ s.pwr.step = 2 ∧ s.pwr.drainT + 100000 ≤ s.nowN then
      s.pwrDo (fun t =>
        let keep (f : HeldFunction) : Bool := f != .clusterSwitch && f != .runnerRails
        let t : State := { t with pwr := { t.pwr with shutting := t.pwr.shutting.filter keep, enabling := t.pwr.enabling.filter keep } }
        t.abortEntry kindCluster ((t.lowestOf t.ctxBusy).getD 0))
    else s)

/-- One step of the Doze exit (R449): HBM and Runners; the clusters, one an event; Active. -/
def State.dozeOut (s : State) : State :=
  match s.pwr.step with
  | 0 =>
    let s := if s.pwr.shed < 6 then (s.refresh false).wakeLinks else s
    { s with pwr := { s.pwr with step := 1 } }
  | 1 =>
    let k := s.pwr.clusterOn
    let s := s.modCluster k (fun c => { c with switchOff := false, progT := s.nowN })
    { s with pwr := { s.pwr with clusterOn := k + 1, step := if k + 1 < 8 then 1 else 2 } }
  | _ => { (s.holdIssue false) with pwr := { s.pwr with state := .active, step := 0 } }

def execDozeExitStep (s : State) : Done := .next (if s.pwr.state == .leaveDoze && (s.proc 1).runs then s.pwrDo State.dozeOut else s)

/-- What follows the Doze entry on the way to Rest (R450): links to DISABLED, the DMP and the CSPs halt, Runner rails off. -/
def execRestEntryStep (s : State) : Done :=
  .next (if s.pwr.state ≠ .enterRest ∨ !(s.proc 1).runs then s
    else match s.pwr.step with
      | 6 => s.pwrDo (fun t =>
          let t := (upto 24).foldl (fun (t : State) n =>
            if (t.link n).state = .disabled then t else t.linkDown n .disabled dcDisabled) t
          { t with pwr := { t.pwr with step := 7 } })
      | 7 => s.pwrDo (fun t =>
          let t := (upto 11).foldl (fun (t : State) i => if i < 2 then t else t.modProc i (fun p => { p with runs := false })) t
          { t with pwr := { t.pwr with step := 8 } })
      | 8 => s.pwrDo (fun t => { ((t.askReg .runA 0).askReg .runH 0) with pwr := { ((t.askReg .runA 0).askReg .runH 0).pwr with step := 9 } })
      | _ => s)

/-- Rest is reached: the L8 keeps its HBM and the function of Stage 0 (R450); a held wake starts the exit. -/
def State.restReached (s : State) : State :=
  let (held, s) := s.endShut .runnerRails
  let port := s.pcie
  let s := (s.quiesce false).count blkPwr 0x03 1
  let s : State := { s with pcie := port, pwr := { s.pwr with state := .rest, step := 0 } }
  if held then s.leave else s

/-! ### Shed stages (R452 to R457) -/

/-- The functions that shed stage 3 shuts down. -/
def stage3 : List HeldFunction :=
  (List.finRange 8).map HeldFunction.rake ++ (List.finRange 8).map HeldFunction.digestUnit ++ (List.finRange 8).map HeldFunction.prunerSweep

/-- Whether a SWEEP share is next on a Pruner. -/
def State.sweepRuns (s : State) (n : Nat) : Bool := match s.prNext n s.pruneQ [] with
  | some (p, _) => p.phase == .sweep
  | none => false

/-- What entering a stage adds (R453, R455). -/
def State.shedIn (s : State) (k : Nat) : State :=
  let t : State := ({ s with pwr := { s.pwr with shed := k, shedSeen := true, shedT := s.nowN } }).count blkPwr (7 + k) 1
  match k with
  | 1 => { t with ops := t.ops.map (fun o => if dOpcode o.desc = 0x11 ∧ o.phase = .running ∧ s.arrayTurn o = false then { o with phase := .shedHeld } else o) }
  | 3 =>
    let t := (upto 8).foldl (fun (t : State) n => if s.sweepRuns n then t.count (blkHbm n) 0x28 1 else t) t
    stage3.foldl (fun (t : State) f => (t.cancelEnable f).beginShut f) t
  | 5 =>
    let t := t.frostStart hdShed
    if (upto 8).any t.plansOn then t.stepDelayed else t
  | 6 => (t.refresh true).sleepLinks
  | _ => t

/-- Enter a stage and every lower one (R452). -/
def State.shedTo (s : State) (k : Nat) : State :=
  ((upto 8).filter (fun j => decide (s.pwr.shed < j ∧ j ≤ k))).foldl (fun (t : State) j => t.shedIn j) s

/-- The enable of a function when stage 3 clears (R462): held while it shuts down, else its pause is over. -/
def State.shedEnable (s : State) (f : HeldFunction) : State := if s.pwr.shutting.contains f then s.holdEnable f else s

/-- The highest stage clears: what it paused resumes, arrays whose ramp was held (R117) and double-dig commands that had not begun (R169)
among it (R456). What the link adders hold waits for the thaw while a Frost holds the device (R361). -/
def State.shedOut (s : State) : State :=
  let old := s
  let k := s.pwr.shed
  let s : State := { s with pwr := { s.pwr with shed := k - 1, shedT := s.nowN } }
  match k with
  | 1 =>
    let s : State := { s with ops := s.ops.map (fun (o : Op) => if o.phase = .shedHeld then { o with phase := .running, progT := s.nowN } else o) }
    s.arraysStart
  | 3 => State.prOffer old (stage3.foldl (fun (t : State) f => t.shedEnable f) s)
  | 4 => (upto 24).foldl (fun (t : State) n => t.pump n) (if s.frost.phase = .running ∨ s.frost.phase = .cutting then s.addersGo.exchangesGo else s)
  | 5 => (s.frostRelease (1#5 <<< hdShed)).stepReady
  | 6 =>
    let s := (s.refresh (s.pwr.state != .active)).wakeLinks
    (match s.pwr.runnerWake with
     | some i => ({ s with pwr := { s.pwr with runnerWake := none } } : State).wakeUp (0x20 + i)
     | none => s)
  | 7 => if s.frost.phase = .running ∨ s.frost.phase = .cutting then (upto 8).foldl (fun (t : State) n => t.cspBack n) s else s
  | _ => s

/-- A droop or a low VDD_CORE has lasted its dwell (R452). -/
def execShedStageEnter (stage : Fin 8) (s : State) : Done :=
  .next (if s.pwr.railsOn.contains .core then s.pwrDo (fun t => t.shedTo stage) else s)

/-- A PMBus undervoltage warning begins or ends (R452). -/
def State.uvWarn (s : State) (r : Rail) (asserted : Bool) : State :=
  s.pwrDo (fun t =>
    if asserted then
      ({ t with pwr := { t.pwr with uvSeen := true, uvRails := if t.pwr.uvRails.contains r then t.pwr.uvRails else t.pwr.uvRails ++ [r] } }).shedTo 3
    else { t with pwr := { t.pwr with
      uvRails := t.pwr.uvRails.filter (fun x => x != r)
      shedT := if t.pwr.uvRails.contains r then t.nowN else t.pwr.shedT } })

def execUndervoltageWarning (r : Rail) (asserted : Bool) (s : State) : Done := .next (s.uvWarn r asserted)

/-- An uncorrected-fatal error at any time (R493, R505). -/
def State.takeFatal (s : State) (cause : Nat) : State := match s.sun.recov with
  | none => s.fatal cause 0
  | some r => s.secondFault r (.fatal cause)

/-- VDD_CORE below 0.50 V for 1 ms, or a VDD_SRAM undervoltage fault (R457): a device cold reset. -/
def execUndervoltageFatal (_cause : UnderCause) (s : State) : Done := .next (s.pwrDo (fun t => t.takeFatal fcUnder))

/-! ### Held enables (R462) -/

/-- A function's shut-down completes: a held enable starts it from its off state. -/
def State.shutDone (s : State) (f : HeldFunction) : State :=
  if !s.pwr.shutting.contains f then s
  else match f with
    | .clusterSwitch => s
    | .runner n =>
      let (start, s) := s.endShut f
      let s := s.linkDown n .disabled dcDisabled
      if start && s.linkOn n then s.linkDetect n else s
    | .runnerRails => if s.pwr.state = .enterRest ∧ s.pwr.step = 9 ∧ s.pwr.reqs.isEmpty then s.restReached else s
    | _ => State.prOffer s (s.endShut f).2

def execShutdownComplete (f : HeldFunction) (s : State) : Done := .next (s.pwrDo (fun t => t.shutDone f))

/-! ### Temperature (R458 to R460) -/

/-- A value held to bounds. -/
def clamp (lo hi v : Nat) : Nat := max lo (min hi v)
def ThermState.limitC (t : ThermState) : Nat := clamp 70 105 (bitsOf t.cfg.toNat 7 0)
def ThermState.hystC (t : ThermState) : Nat := clamp 2 30 (bitsOf t.cfg.toNat 15 8)

/-- The PMP samples every sensor (R458): the hottest reading, the dwells of R459, OVER_TJMAX; the stacks' temperatures. -/
def State.thermSample (s : State) (readings : List (Fin 11 × Nat)) (hbmTemps : List (Fin 8 × Byte)) : State :=
  let s := hbmTemps.foldl (fun (t : State) (e : Fin 8 × Byte) => t.modHbm e.1 (fun h => { h with tempC := e.2 })) s
  match readings with
  | [] => s
  | h :: rest =>
    let hot := rest.foldl (fun (b : Fin 11 × Nat) e => if b.2 < e.2 then e else b) h
    let th := s.therm
    let th := { th with tj := hot.2, site := hot.1.val, overTj := th.overTj || decide (105 ≤ hot.2) }
    { s with therm := { th with
      hotAt := if th.limitC ≤ hot.2 then some (th.hotAt.getD s.nowN) else none
      coolAt := if hot.2 < th.limitC - th.hystC ∧ 0 < s.pwr.limit then some (th.coolAt.getD s.nowN) else none } }

def execThermalSample (readings : List (Fin 11 × Nat)) (hbmTemps : List (Fin 8 × Byte)) (s : State) : Done :=
  .next (if (s.proc 1).runs then s.pwrDo (fun t => t.thermSample readings hbmTemps) else s)

/-- A new thermal limit: counted, both dwells start again (R459). -/
def State.setLimit (s : State) (l : Nat) (down : Bool) : State :=
  let th := s.therm
  let s : State := { s with
    pwr := { s.pwr with limit := l }
    therm := { th with
      downEv := th.downEv || down
      up := th.up || !down
      hotAt := th.hotAt.map (fun _ => s.nowN)
      coolAt := if l = 0 then none else th.coolAt.map (fun _ => s.nowN) } }
  s.count blkPwr 0x11 1

/-- LIMIT_C reached for 1 ms: one mode cooler than the effective mode; none when that is Cool (R459). -/
def execThermalLimitLower (s : State) : Done :=
  .next (match s.therm.hotAt with
    | some t => if (s.proc 1).runs = true ∧ t + 1000000 ≤ s.nowN ∧ s.modeEff < 2 then s.pwrDo (fun u => u.setLimit (s.modeEff + 1) true) else s
    | none => s)

/-- Below LIMIT_C - HYST_C for 1 s with a limit in force: one mode warmer (R459). -/
def execThermalLimitRaise (s : State) : Done :=
  .next (match s.therm.coolAt with
    | some t => if (s.proc 1).runs = true ∧ t + 1000000000 ≤ s.nowN ∧ 0 < s.pwr.limit then s.pwrDo (fun u => u.setLimit (s.pwr.limit - 1) false) else s
    | none => s)

/-- Rails that the trip leaves on. -/
def tripKeeps (r : Rail) : Bool := r == .pcieA || r == .pcieH

/-- The hardware trip at 115 C (R460), armed from PWR_GOOD on. -/
def execThermalTrip (s : State) : Done :=
  .next (if !s.start.good ∨ s.therm.tripPin then s
    else s.pwrDo (fun t =>
      let off := t.pwr.railsOn.filter (fun r => !tripKeeps r)
      let t := (t.emit (.thermTrip true)).quiesce true
      let t := off.foldl (fun (t : State) r => t.emit (.regulator r 0)) t
      { t with
        therm := { t.therm with tripped := true, tripPin := true }
        start := { t.start with seqPos := min 1 t.start.seqPos, seqT := t.nowN }
        pwr := { t.pwr with railsOn := t.pwr.railsOn.filter tripKeeps, coreMv := 0, reqs := [] } }))

/-- REQ 0b11 after a trip, once the hottest reading is below 95 C: the domains come on again (R460). -/
def State.tripAgain (s : State) : State :=
  if s.therm.tripPin ∧ s.therm.tj < 95 then
    s.pwrDo (fun t => ({ t with
      therm := { t.therm with tripPin := false }
      start := { t.start with resetWhy := whyTrip, seqT := t.nowN } }).emit (.thermTrip false))
  else s

end Sys2Proof.Machine
end

