-- ==== Sys2Proof/Machine/Group.lean ====
section
/-! DEFINITION. Group operation (R387 to R412): formation, plans and epochs, heartbeats and takeover, rollback and replay. A
group message acts on its receiver's DMP; one that meets a DMP which is down waits for it. -/

namespace Sys2Proof.Machine

open Sys2Proof

/-- Reasons of REFUSE and of TOP_GROUP_STAT. -/
def grConfig : Nat := 1
def grVersion : Nat := 2
def grAttest : Nat := 3
def grDuplicate : Nat := 4
def grNotMember : Nat := 5
def grSilent : Nat := 6
def grRetirement : Nat := 7

def State.isManager (s : State) : Bool := s.group.role == .manager && s.group.state != .refused
def w32 (n : Nat) : W32 := BitVec.ofNat 32 n
def chipAt (bs : List Byte) (off : Nat) : BitVec 12 := BitVec.ofNat 12 (fieldAt bs off 2)

/-! ### The configuration record (R387, R388) -/

/-- Parse and check the record for a device; none where R388 refuses it. -/
def groupCfg (self : BitVec 12) (bs : List Byte) : Option GroupCfg :=
  let sl := fieldAt bs 16 1
  let d := fieldAt bs 18 2
  let n := sl * d
  let ms := (upto n).map (fun i => chipAt bs (64 + 2 * i))
  let man := chipAt bs 12
  let dep := chipAt bs 14
  if [2, 4, 8, 16, 32, 64].contains sl && decide (n ≤ 4096) && ms.eraseDups.length == n && ms.contains self && ms.contains man
      && ms.contains dep && man != dep then
    some { groupId := BitVec.ofNat 64 (fieldAt bs 0 8), cfgSeq := w32 (fieldAt bs 8 4), manager := man, deputy := dep, slice := sl
           policy := fieldAt bs 17 1, replicas := d, members := ms, digest := Config.shake256 (bs.take (64 + 2 * n)) }
  else none

def freshMember (chip : BitVec 12) : Member :=
  { chip := chip, serial := 0, admitted := false, passed := false, failed := false, beatT := 0, recv := 0, done := 0, delayedT := none, ifMinor := 0 }

/-- The device begins its part in the group (R390): JOINING, its role by the record; a device kept out by R30 sends no JOIN. -/
def State.groupBegin (s : State) : State :=
  match s.group.cfg with
  | none => s
  | some c =>
    let self := s.group.self
    let s := s.modGroup (fun g =>
      { g with
        manager := c.manager
        deputy := some c.deputy
        role := if self = c.manager then .manager else .none
        members := c.members.map freshMember
        ifMinor := s.fw.ifMinor
        rejoined := false
        joinT := 0 })
    s.setGroup .joining

def State.member? (s : State) (chip : BitVec 12) : Option Member := s.group.members.find? (fun m => m.chip == chip)
def State.modMember (s : State) (chip : BitVec 12) (f : Member → Member) : State :=
  s.modGroup (fun g => { g with members := modFirst (fun m => m.chip == chip) f g.members })

/-! ### JOIN (R390) -/

/-- Cores in service of a cluster. -/
def State.coresIn (s : State) (n : Nat) : Nat :=
  ((upto 16).filter (fun k => (s.core (16 * n + k)).inService && !(s.core (16 * n + k)).retired)).length

def State.joinData (s : State) : List Byte :=
  let d := match s.group.cfg with
    | some c => bytesOf 64 c.digest.toNat ++ bytesOf 4 c.cfgSeq.toNat
    | none => List.replicate 68 0
  bytesOf 8 s.sec.serial.toNat ++ [BitVec.ofNat 8 s.fw.ifMajor, BitVec.ofNat 8 s.fw.ifMinor] ++ d ++ (upto 8).map (fun n => BitVec.ofNat 8 (s.coresIn n))
  ++ bytesOf 4 s.group.epochRecv.toNat ++ bytesOf 8 s.nowN

/-- Send a JOIN where a route to the manager is UP. -/
def State.sendJoin (s : State) : State :=
  if s.group.state = .joining ∧ (s.group.manager = s.group.self ∨ (s.route s.group.manager).isSome) then
    (s.sendGroup s.group.manager gtJoin s.joinData).modGroup (fun g => { g with joinT := s.nowN })
  else s

/-- What this device has of its group's work is cleared: the contexts that plans drive, plans and epochs (R401). -/
def State.clearGroupWork (s : State) : State :=
  let s := (upto 64).foldl (fun (t : State) c => match t.ctx c with
    | some x => if x.planned then t.destroyCtx c else t
    | none => t) s
  s.modGroup (fun g => { g with plans := [], epochs := [], epochRecv := 0, epochDone := 0, formed := false, suspect := false, delayed := false })

/-- This device leaves its group and joins again (R401, R403). -/
def State.rejoin (s : State) : State :=
  let s := ((s.clearGroupWork).unadmit).timeFree
  (s.modGroup (fun g => { g with role := .none, roll := none, restoreDue := false, waiting := [], rejoined := true })).setGroup .joining

/-! ### The manager sends plans (R394, R397 to R399) -/

def State.jobBlock (s : State) (chip : BitVec 12) : Option JobBlock := match s.group.job with
  | some j => j.blocks.find? (fun b => b.chip == chip)
  | none => none

/-- A JOB with the context records of a member. -/
def State.sendJob (s : State) (chip : BitVec 12) : State := match s.jobBlock chip with
  | some b => s.sendGroup chip gtJob (b.ctxs.flatMap (fun r => [1, 0, 64, 0] ++ bytesOf 64 r.toNat))
  | none => s

/-- A plan body with its EPOCH, STEP and REPLAY flag filled in (R394). -/
def planBody (body : List Byte) (epoch step : W32) (replay : Bool) : List Byte :=
  let f := fieldAt body 11 1
  let n := fieldAt body 9 1
  (patch (patch (patch body 0 (bytesOf 4 epoch.toNat)) 4 (bytesOf 4 step.toNat)) 11
    [BitVec.ofNat 8 (f / 2 * 2 + bnat replay)]).take (16 + 16 * n)

/-- Send every member its own plan of an epoch. -/
def State.sendPlans (s : State) (kind : Nat) (step : W32) (replay : Bool) : State :=
  let e := s.group.epochTop + 1
  let s := s.groupMembers.foldl (fun (t : State) chip => match t.jobBlock chip with
    | some b => t.sendGroup chip gtPlan (planBody (if kind = 2 then b.restore else if kind = 1 then b.check else b.normal) e step replay)
    | none => t) s
  s.modGroup (fun g => { g with epochTop := e, issued := g.issued ++ [(e, step, kind)] })

/-- The lowest EPOCH_RECV and EPOCH_DONE of the members. -/
def State.minRecv (s : State) : Nat := s.group.members.foldl (fun v m => min v m.recv.toNat) (2 ^ 32 - 1)
def State.minDone (s : State) : Nat := s.group.members.foldl (fun v m => min v m.done.toNat) (2 ^ 32 - 1)

/-- COMMIT of the highest complete CHECKPOINT epoch, where no epoch since the last committed one was reported suspect (R399). -/
def State.tryCommit (s : State) : State :=
  let d := s.minDone
  match (s.group.issued.filter (fun e => e.2.2 == 1 && decide (e.1.toNat ≤ d))).reverse with
  | (e, st, _) :: _ =>
    if s.group.suspectE.any (fun q => decide (s.group.commitE.toNat < q.toNat)) then s
    else
      let s := s.modGroup (fun g => { g with commitE := e, commitS := st, issued := g.issued.filter (fun q => decide (e.toNat < q.1.toNat)) })
      s.sendAll gtCommit (bytesOf 4 e.toNat ++ bytesOf 4 st.toNat)
  | [] => s

/-- What the manager does next (R394, R398, R405): commit, the RESTORE plan that is due, or the next step. -/
def State.drive (s : State) : State :=
  if !s.isManager ∨ !s.group.formed ∨ s.group.roll.isSome = true ∨ s.group.state = .held ∨ !s.group.waiting.isEmpty then s
  else match s.group.job with
    | none => s
    | some j =>
      let s := s.tryCommit
      let g := s.group
      let busy := (g.issued.filter (fun e => decide (s.minDone < e.1.toNat))).length
      if g.members.any (fun m => !m.admitted) ∨ g.issued.any (fun e => decide (s.minRecv < e.1.toNat)) ∨ 2 ≤ busy then s
      else if g.restoreDue then
        (s.sendPlans 2 g.commitS false).modGroup (fun g => { g with restoreDue := false, step := g.commitS + 1 })
      else if j.last.toNat < g.step.toNat then s
      else
        let kind := if j.ckpt ≠ 0 ∧ g.step.toNat % j.ckpt.toNat = 0 then 1 else 0
        (s.sendPlans kind g.step (decide (g.step.toNat ≤ g.replayTo.toNat))).modGroup (fun g => { g with step := g.step + 1 })

/-- The job starts: JOB to every member, the first step next (R394). Before any commit the rollback point is the step before it. -/
def State.startJob (s : State) : State := match s.group.job with
  | none => s
  | some j =>
    if !s.isManager ∨ !s.group.formed then s
    else
      let s := s.groupMembers.foldl (fun (t : State) c => t.sendJob c) s
      (s.modGroup (fun g => { g with step := j.first, commitS := if g.commitE = 0 then j.first - 1 else g.commitS })).drive

/-! ### Rollback (R405 to R407) -/

/-- A group Frost of this device's making (R405, R510). -/
def State.groupFrost (s : State) : State := s.frostGroup (s.frost.groupCount + 1) s.group.self

/-- Whether the epochs from `low` on can be replayed in place (R406): no member is down, and none can have copied an item at or
beyond UPDATE_POINT of one. Of another member the manager knows only whether it has the plan, and the plan. -/
def State.inPlace (s : State) (low : W32) : Bool :=
  s.group.waiting.isEmpty && (s.group.issued.filter (fun e => decide (low.toNat ≤ e.1.toNat))).all (fun e =>
    e.2.2 != 2 && s.group.members.all (fun m =>
      let body := match s.jobBlock m.chip with
        | some b => if e.2.2 = 1 then b.check else b.normal
        | none => []
      decide (m.recv.toNat < e.1.toNat) || fieldAt body 10 1 == fieldAt body 9 1
      || (m.chip == s.group.self && s.group.epochs.all (fun q => q.epoch != e.1 || !q.pastUpdate))))

/-- Steps 2 and 3 of a rollback, once the cut has settled here (R405): DISCARD, THAW, and the step to go on from. -/
def State.rollGo (s : State) : State :=
  match s.group.roll with
  | some r =>
    if !s.isManager ∨ !r.ready ∨ s.frost.phase ≠ .frozen then s
    else
      let inPl := !r.restore && s.inPlace r.low
      let low := if inPl then r.low else s.group.commitE + 1
      let at_ := ((s.group.issued.find? (fun e => e.1 == low)).map (fun e => e.2.1)).getD (s.group.commitS + 1)
      let s := (s.sendAll gtDiscard (bytesOf 4 low.toNat)).sendAll gtThaw (bytesOf 4 s.frost.id)
      s.modGroup (fun g =>
        { g with
          roll := none
          restoreDue := g.restoreDue || !inPl
          replayTo := if g.replayTo.toNat < g.step.toNat - 1 then g.step - 1 else g.replayTo
          step := if inPl then at_ else g.commitS + 1
          suspectE := g.suspectE.filter (fun e => decide (e.toNat < low.toNat))
          issued := g.issued.filter (fun e => decide (e.1.toNat < low.toNat)) })
  | none => s

/-- The manager rolls back (R405): from epoch `low` on, at once or on READY. -/
def State.rollBack (s : State) (low : W32) (restore ready : Bool) : State :=
  match s.group.roll with
  | some r =>
    (s.modGroup (fun g => { g with roll := some { low := if low.toNat < r.low.toNat then low else r.low, restore := r.restore || restore, ready := r.ready && ready } })).rollGo
  | none => ((s.modGroup (fun g => { g with roll := some { low := low, restore := restore, ready := ready } })).groupFrost).rollGo

/-- The lowest epoch that is not complete: above the last committed one. -/
def State.lowOpen (s : State) : W32 := w32 (max s.minDone s.group.commitE.toNat + 1)

/-- A member is lost (R401, R408, R411): un-admitted and waited for; a rollback, once the group is formed. -/
def State.loseMember (s : State) (chip : BitVec 12) : State :=
  match s.member? chip with
  | none => s
  | some m =>
    if !s.isManager ∨ !m.admitted ∨ chip = s.group.self then s
    else
      let s := s.modMember chip (fun m => { m with admitted := false, passed := false, failed := false, delayedT := none, recv := 0, done := 0 })
      if !s.group.formed then s
      else
        let s := s.modGroup (fun g => { g with waiting := g.waiting ++ [chip], deputy := if g.deputy = some chip then none else g.deputy })
        match s.group.roll with
        | some r => (s.modGroup (fun g => { g with roll := some { r with restore := true, ready := true } })).rollGo
        | none => s.rollBack s.lowOpen true true

/-- A member is lost for its silence: REFUSE with SILENT first (R401). -/
def State.silentMember (s : State) (chip : BitVec 12) : State :=
  (s.sendGroup chip gtRefuse [BitVec.ofNat 8 grSilent]).loseMember chip

/-! ### The manager's side of formation (R390 to R393, R55) -/

def State.sendRefuse (s : State) (chip : BitVec 12) (reason : Nat) : State :=
  ((s.sendGroup chip gtRefuse [BitVec.ofNat 8 reason]).peerRefused chip).mailReport mrRefused (chip.toNat + fieldVal reason 16)

/-- A VERDICT at the manager (R533): it counts from the manager itself or from an admitted member. -/
def State.inVerdict (s : State) (m : Msg) : State :=
  let chip := chipAt m.data 0
  let fromOk := m.src == s.group.self || (match s.member? m.src with
    | some e => e.admitted
    | none => false)
  if !s.isManager ∨ !fromOk then s
  else if fieldAt m.data 10 1 = 1 then s.modMember chip (fun e => { e with passed := true, failed := false })
  else match s.member? chip with
    | none => s
    | some e =>
      if e.admitted then s.silentMember chip
      else (s.modMember chip (fun e => { e with failed := true, passed := false })).sendRefuse chip grAttest

/-- The missing members are reported to the management mailbox, in place of those reported before (R393). -/
def State.reportMissing (s : State) : State :=
  let gone := (s.group.members.filter (fun m => !m.admitted)).map (fun m => (mrMissing, m.chip.toNat))
  s.modGroup (fun g => { g with reports := g.reports.filter (fun r => r.1 != mrMissing) ++ gone })

/-- FORMED when every member is admitted; what the group waited for goes on (R393, R405). -/
def State.tryForm (s : State) : State :=
  if !s.isManager then s
  else if s.group.members.any (fun m => !m.admitted) then s.reportMissing
  else
    let s := s.reportMissing
    let first := !s.group.formed
    let n := s.group.members.length
    let s := (s.sendAll gtFormed (bytesOf 2 n)).modGroup (fun g => { g with formed := true, waiting := [] })
    if first && s.group.job.isSome && s.group.epochTop == 0 then s.startJob else s.drive

/-- The lowest firmware interface minor among the admitted members (R392). -/
def GroupState.lowMinor (g : GroupState) : Nat := g.members.foldl (fun v e => if e.admitted then min v e.ifMinor else v) 255

/-- ADMIT to a member: the group's firmware interface minor, the last committed epoch and its STEP (R389). -/
def State.sendAdmit (s : State) (chip : BitVec 12) : State :=
  s.sendGroup chip gtAdmit ([BitVec.ofNat 8 s.group.ifMinor] ++ bytesOf 4 s.group.commitE.toNat ++ bytesOf 4 s.group.commitS.toNat)

/-- ADMIT (R55, R390, R392): during formation the manager's time base steps forward to the member's estimated one, from the JOIN's value
and the time since it arrived, at `at_`. A lower firmware interface minor reaches the members admitted before by an ADMIT of their own
(DESIGN CHOICE, log entry 72). -/
def State.admitMember (s : State) (at_ : Nat) (m : Msg) : State :=
  let serial := BitVec.ofNat 64 (fieldAt m.data 0 8)
  let est := fieldAt m.data 90 8 + (s.nowN - at_) + 10000
  let known := (s.member? m.src).map (fun e => e.serial)
  let s : State := if !s.group.formed ∧ m.src ≠ s.group.self ∧ s.nowN < est ∧ est < 2 ^ 64 then
      { s with time := { s.time with now := BitVec.ofNat 64 est, stepped := true } } else s
  let s := if known ≠ some serial ∧ known ≠ some 0 then s.mailReport mrSerial (m.src.toNat + fieldVal serial.toNat 16) else s
  let again := match s.member? m.src with
    | some e => e.admitted
    | none => false
  let s := s.modMember m.src (fun e => { e with serial := serial, admitted := true, beatT := s.nowN, ifMinor := fieldAt m.data 9 1
                                                recv := if again then e.recv else s.group.epochTop
                                                done := if again then e.done else s.group.epochTop })
  let late := s.group.waiting.contains m.src
  let minor := s.group.ifMinor
  let s := s.modGroup (fun g =>
    { g with
      ifMinor := g.lowMinor
      waiting := g.waiting.filter (fun c => c != m.src)
      deputy := if g.deputy.isNone ∧ m.src ≠ g.self ∧ (match g.cfg with
        | some c => m.src == c.manager || m.src == c.deputy
        | none => false) = true then some m.src else g.deputy })
  let s := (s.sendAdmit m.src).peerAdmitted m.src
  let s := if s.group.ifMinor < minor then
      (s.group.members.filter (fun e => e.admitted && e.chip != m.src)).foldl (fun t e => t.sendAdmit e.chip) s
    else s
  let s := if late then s.sendJob m.src else s
  s.tryForm

/-- JOIN at the manager (R390): refused with the first reason that applies; without a verdict yet it waits for the next JOIN. -/
def State.inJoin (s : State) (at_ : Nat) (m : Msg) : State :=
  match s.isManager, s.group.cfg with
  | true, some c =>
    if (m.data.drop 10).take 64 ≠ bytesOf 64 c.digest.toNat ∨ fieldAt m.data 74 4 ≠ c.cfgSeq.toNat then s.sendRefuse m.src grConfig
    else match s.member? m.src with
      | none => s.sendRefuse m.src grNotMember
      | some e =>
        if e.admitted ∧ e.serial.toNat ≠ fieldAt m.data 0 8 then s.sendRefuse m.src grDuplicate
        else if fieldAt m.data 8 1 ≠ s.fw.ifMajor then s.sendRefuse m.src grVersion
        else if m.src = s.group.self ∨ e.passed then s.admitMember at_ m
        else if e.failed then s.sendRefuse m.src grAttest
        else s
  | _, _ => s

/-! ### Members (R391 to R393, R400) -/

/-- Every link whose peer is authenticated carries all traffic: its peer is admitted (R314, R392). -/
def State.openLinks (s : State) : State :=
  { s with links := s.links.map (fun (l : Link) => { l with admitted := l.admitted || l.authOk }) }

/-- ADMIT (R55, R392, R403): `port` is where it came in. A member admitted before takes the group's firmware interface minor from it. -/
def State.inAdmit (s : State) (port : Option Nat) (m : Msg) : State :=
  if s.group.state.inGroup ∧ m.src = s.group.manager then s.modGroup (fun g => { g with ifMinor := fieldAt m.data 0 1 })
  else if s.group.state ≠ .joining then s
  else
    let s := s.modGroup (fun g =>
      { g with
        rejoined := g.rejoined || fieldAt m.data 1 4 != 0
        manager := m.src
        ifMinor := fieldAt m.data 0 1
        commitE := w32 (fieldAt m.data 1 4)
        commitS := w32 (fieldAt m.data 5 4)
        beatMgr := s.nowN
        role := if m.src = g.self then .manager else match g.cfg with
          | some c => if g.self = c.manager ∨ g.self = c.deputy then .deputy else .worker
          | none => .worker })
    let s : State := if m.src = s.group.self then s else { s with time := { s.time with mayStep := true, lastExch := s.nowN } }
    let s := match port with
      | some n => s.modLink n (fun l => { l with admitted := l.authOk })
      | none => s
    s.setGroup .admitted

/-- REFUSE (R391, R401): SILENT makes the member join again; any other reason holds it out of the group. A refused device stays outside
whatever comes (R31, R391). -/
def State.inRefuse (s : State) (m : Msg) : State :=
  let r := fieldAt m.data 0 1
  if m.src ≠ s.group.manager ∨ s.group.state = .refused then s
  else if r = grSilent then s.rejoin
  else
    let s := ((s.clearGroupWork).unadmit).timeFree
    (s.modGroup (fun g => { g with reason := r, role := .none })).setGroup .refused

/-- FORMED (R393): RUNNING, and Stage 3. -/
def State.inFormed (s : State) (m : Msg) : State :=
  if !s.group.state.inGroup ∨ m.src ≠ s.group.manager then s
  else
    let s := s.modGroup (fun g =>
      { g with
        formed := true
        deputy := match g.cfg with
          | some c => some (if m.src = c.manager then c.deputy else c.manager)
          | none => none })
    let s := (s.openLinks).setGroup .running
    if s.start.stage = 2 ∧ s.start.failCode = 0 then
      let s : State := { s with start := { s.start with stage := 3 } }
      s.logEntry srcDmp 1 0x0001 [3, s.startStat]
    else s

/-- Destroy a context that a plan drives. -/
def State.jobDestroy (s : State) (c : Nat) : State := match s.ctx c with
  | some x => if x.planned then s.destroyCtx c else s
  | none => s

/-- JOB (R476, R480): its records in order. A context record for a number that a plan already drives replaces that context. -/
def State.inJob (s : State) (m : Msg) : State :=
  if !s.group.state.inGroup ∨ m.src ≠ s.group.manager then s
  else (jobRecords (m.data.length + 1) m.data).foldl (fun (t : State) (r : Nat × List Byte) =>
    if r.1 = 1 then
      let b := blockOf (r.2.take 64)
      (t.jobDestroy (cContext b)).jobCreate b
    else if r.1 = 2 then t.jobDestroy (fieldAt r.2 0 1)
    else if r.1 = 3 then
      (if fieldAt r.2 0 1 = 1 then t.pwrDo (fun u => u.askState false true) else if fieldAt r.2 0 1 = 3 then t.askActive else t)
    else t) s

/-! ### Plan copying (R395, R437) -/

def planOf (data : List Byte) : Plan :=
  let n := min 64 (fieldAt data 9 1)
  let item (i : Nat) : PlanItem :=
    let b := data.drop (16 + 16 * i)
    { ctx := fieldAt b 0 1 % 64, setStep := bitOf (fieldAt b 1 1) 0, entries := fieldAt b 2 2, addr := BitVec.ofNat 48 (fieldAt b 4 6) }
  { epoch := w32 (fieldAt data 0 4), step := w32 (fieldAt data 4 4), kind := fieldAt data 8 1, update := fieldAt data 10 1
    replay := bitOf (fieldAt data 11 1) 0, items := (upto n).map item, item := 0, entry := 0 }

/-- Whether an entry is a TRUG_SLOT_SET of two entries: one of another DESC_VER takes one place (R207). -/
def twoEntries (op ver : Nat) : Bool := op == 0x28 && ver % 16 == 1

/-- Whether entry `j` of an item's template is the second entry of a TRUG_SLOT_SET, which has no CMD_TAG (R210). -/
def State.secondEntry (s : State) (addr : Nat) : Nat → Bool
  | 0 => false
  | j + 1 => !s.secondEntry addr j && twoEntries (natOf (s.mem.read (addr + 64 * j) 1)) (natOf (s.mem.read (addr + 64 * j + 1) 1))

/-- Copy one entry (R395): EPOCH into CMD_TAG, STEP into a PRUNE_UPDATE where SET_STEP is set; poison goes with it. -/
def State.copyEntry (s : State) (p : Plan) (it : PlanItem) (x : Context) : State :=
  let a := it.addr.toNat + 64 * p.entry
  let second := s.secondEntry it.addr.toNat p.entry
  let (l, s) := s.loadHome .fabric a 64
  let bs := if second then l.bytes else patch l.bytes 8 (bytesOf 4 p.epoch.toNat)
  let bs := if !second && it.setStep && fieldAt bs 0 1 == 0x38 then patch bs 52 (bytesOf 4 p.step.toNat) else bs
  let dst := sqAddr x x.sqTail
  let s := s.storeHome .fabric dst bs (l.bad.map (fun g => g - granule a + granule dst))
  let s := s.modCtx it.ctx (fun x => { x with sqTail := x.sqTail + 1 })
  s.modGroup (fun g => { g with epochs := g.epochs.map (fun (e : Epoch) =>
    if e.epoch = p.epoch then { e with copied := e.copied + bnat (!second), pastUpdate := e.pastUpdate || decide (p.update ≤ p.item) } else e) })

/-- An epoch's completion at this member (R398, R400): EPOCH_DONE rises to the highest epoch below which none is open. -/
def State.epochCheck (s : State) : State :=
  match s.group.epochs with
  | e :: t =>
    if e.whole && e.recs == e.copied then
      (s.modGroup (fun g => { g with epochs := t, epochDone := e.epoch })).heartbeat
    else s
  | [] => s

/-- Copy what the rings have room for, by fuel (R395). The first item of an epoch waits for a pending CFG_SWAP (R437). -/
def State.copyPlans (s : State) : Nat → State
  | 0 => s
  | k + 1 =>
    match s.group.plans with
    | [] => s
    | p :: rest =>
      let held := s.votes.swap.vote 0 != 0 && p.item == 0 && p.entry == 0
        && (s.regs.swapEpoch == 0 || decide (s.regs.swapEpoch.toNat ≤ p.epoch.toNat))
      if held ∨ !(s.proc 2).runs ∨ s.frost.phase ≠ .running then s
      else match p.items[p.item]? with
        | none =>
          let s := s.modGroup (fun g => { g with plans := rest, epochs := g.epochs.map (fun (e : Epoch) => if e.epoch = p.epoch then { e with whole := true } else e) })
          State.copyPlans s.epochCheck k
        | some it =>
          if it.entries ≤ p.entry then State.copyPlans (s.modGroup (fun g => { g with plans := { p with item := p.item + 1, entry := 0 } :: rest })) k
          else match s.ctx it.ctx with
            | none => s
            | some x =>
              if !x.planned ∨ x.status ≠ .active ∨ 2 ^ x.sqLog2 ≤ (x.sqTail - x.sqHead).toNat then s
              else
                let s := s.copyEntry p it x
                State.copyPlans (s.modGroup (fun g => { g with plans := { p with entry := p.entry + 1 } :: rest })) k

/-- Fuel for a copy: every entry of the plans, with their items and ends. -/
def State.copyFuel (s : State) : Nat := s.group.plans.foldl (fun n p => n + 2 + p.items.foldl (fun k i => k + 1 + i.entries) 0) 0

def State.copyNow (s : State) : State := s.copyPlans s.copyFuel

/-- PLAN (R395, R398): a new epoch begins; its copying starts. -/
def State.inPlan (s : State) (m : Msg) : State :=
  let p := planOf m.data
  if !s.group.state.inGroup ∨ m.src ≠ s.group.manager ∨ p.epoch.toNat ≤ s.group.epochRecv.toNat then s
  else
    let clears := s.group.suspect && (p.replay || p.kind == 2)
    let s := s.modGroup (fun g =>
      { g with
        epochRecv := p.epoch
        epochTop := if g.epochTop.toNat < p.epoch.toNat then p.epoch else g.epochTop
        suspect := g.suspect && !clears
        plans := g.plans ++ [p]
        epochs := g.epochs ++ [{ epoch := p.epoch, copied := 0, recs := 0, whole := false, pastUpdate := false }] })
    let s := if s.group.state = .waitRejoin then s.setGroup .running else s
    let s := if clears then s.heartbeat else s
    (s.openLinks).copyNow

/-! ### Completion records of plans (R396) -/

/-- Read one record of a planned context's completion ring. -/
def State.readRecord (s : State) (c : Nat) : State :=
  match s.ctx c with
  | none => s
  | some x =>
    if !x.planned ∨ !(s.proc 2).runs ∨ x.cqHead = x.cqTail then s
    else
      let r := s.mem.read (cqAddr x x.cqHead) 32
      let st := fieldAt r 8 1
      let epoch := w32 (fieldAt r 0 4)
      let ext := bitOf (fieldAt r 9 1) 1
      let bad := decide (0x0F < st)
      let s := s.modCtx c (fun x =>
        { x with
          cqHead := x.cqHead + (if ext then 3 else 1)
          planRecs := if bad then (BitVec.ofNat 256 (natOf r) :: x.planRecs).take 1024 else x.planRecs })
      let s := if bad then s.logEntry srcDmp sevWarn 0x4030 [c, fieldAt r 4 4, st + fieldVal (fieldAt r 10 1) 8, epoch.toNat] else s
      let s := if st = stReduceMismatch.toNat then
          let s := s.report rpSuspect (bytesOf 4 epoch.toNat)
          (if s.group.suspect then s else (s.modGroup (fun g => { g with suspect := true })).heartbeat)
        else s
      (s.modGroup (fun g => { g with epochs := g.epochs.map (fun (e : Epoch) => if e.epoch = epoch then { e with recs := e.recs + 1 } else e) })).epochCheck

/-! ### WITHDRAW, DISCARD, THAW, COMMIT (R399, R405, R410) -/

/-- Whether a command was copied from the plan of an epoch that a test picks. -/
def State.planOp (s : State) (p : W32 → Bool) (o : Op) : Bool := match s.ctx o.ctx with
  | some x => x.planned && p (dTag o.desc)
  | none => false

/-- WITHDRAW (R359, R410): the collectives of an epoch complete with STEP_DELAYED. An exchange ends with PEER_LOST or COLLECTIVE_TIMEOUT only
(R375). -/
def State.inWithdraw (s : State) (m : Msg) : State :=
  let e := w32 (fieldAt m.data 0 4)
  ((s.colls.filter (fun c => match s.op? c.ctx c.idx with
    | some o => s.planOp (fun t => t == e) o
    | none => false)).foldl (fun (t : State) c => t.collEnd c stStepDelayed) s).exchangesGo

/-- Read every record of a planned context that is ready, by fuel. -/
def State.readRecords (s : State) (c : Nat) : Nat → State
  | 0 => s
  | k + 1 => State.readRecords (s.readRecord c) c k

/-- Entries of discarded epochs that stand in a ring and have not issued complete in order (R405), by fuel. -/
def State.dropEntries (s : State) (c : Nat) (low : W32) : Nat → State
  | 0 => s
  | k + 1 =>
    match s.ctx c with
    | none => s
    | some x =>
      let d := s.entryAt x x.sqHead
      if x.sqHead = x.sqTail ∨ (dTag d).toNat < low.toNat then s
      else
        let n := if twoEntries (dOpcode d) (dVer d) then 2 else 1
        let o := { s.newOp c x d with slots := 1 }
        let s := (s.advance c n).finishNow (o.raise stAbortedFrost) none
        State.dropEntries (s.readRecords c 2) c low k

/-- DISCARD (R405): every command of the epochs from `low` on that has not completed ends with ABORTED_FROST; no more of them is
copied. The DMP has read the records that are ready. -/
def State.inDiscard (s : State) (m : Msg) : State :=
  let low := w32 (fieldAt m.data 0 4)
  let planned := (upto 64).filter (fun c => match s.ctx c with
    | some x => x.planned
    | none => false)
  let s := planned.foldl (fun (t : State) c => t.readRecords c (match t.ctx c with
    | some x => 2 ^ x.cqLog2
    | none => 0)) s
  let s := s.modGroup (fun g => { g with plans := g.plans.filter (fun p => decide (p.epoch.toNat < low.toNat)) })
  let s := (s.ops.filter (s.planOp (fun t => decide (low.toNat ≤ t.toNat)))).foldl (fun (t : State) o => t.killOp o stAbortedFrost) s
  let s := planned.foldl (fun (t : State) c => t.dropEntries c low (match t.ctx c with
    | some x => 2 ^ x.sqLog2
    | none => 0)) s
  let s := s.modGroup (fun g => { g with
    epochs := g.epochs.filter (fun e => decide (e.epoch.toNat < low.toNat))
    epochDone := if g.epochDone.toNat < g.epochRecv.toNat ∧ (g.epochs.all (fun e => decide (low.toNat ≤ e.epoch.toNat))) = true then g.epochRecv else g.epochDone })
  planned.foldl (fun (t : State) c => t.settle c) s

/-- THAW (R405, R515): the GROUP holder of the Frost it names clears; the group waits for its lost members. -/
def State.inThaw (s : State) (m : Msg) : State :=
  if fieldAt m.data 0 4 ≠ s.frost.id then s
  else
    let s := s.frostRelease (1#5 <<< hdGroup)
    if s.group.state = .frosted then s.setGroup .waitRejoin else s

def State.inCommit (s : State) (m : Msg) : State :=
  if m.src ≠ s.group.manager then s
  else s.modGroup (fun g => { g with commitE := w32 (fieldAt m.data 0 4), commitS := w32 (fieldAt m.data 4 4) })

/-! ### Heartbeats and takeover (R400 to R404) -/

/-- HEARTBEAT at the manager and the deputy (R400): the manager's view of the member's epochs. -/
def State.inHeartbeat (s : State) (m : Msg) : State :=
  let recv := w32 (fieldAt m.data 0 4)
  let s := s.modMember m.src (fun e => { e with recv := recv, done := w32 (fieldAt m.data 4 4), beatT := s.nowN })
  let s := if s.isManager then s else s.modGroup (fun g => { g with epochTop := if g.epochTop.toNat < recv.toNat then recv else g.epochTop })
  s.drive

/-- The STEP of the current epoch, the last one sent (R389): of the plans out, else of the committed epoch, else the one before the next. -/
def GroupState.stepNow (g : GroupState) : W32 :=
  match g.issued.find? (fun e => e.1 == g.epochTop) with
  | some e => e.2.1
  | none => if g.epochTop = g.commitE then g.commitS else g.step - 1

/-- MGR_BEAT (R399, R400): the manager lives; the deputy learns of each commit, and of the STEP the next plan has. -/
def State.inMgrBeat (s : State) (m : Msg) : State :=
  if m.src = s.group.self then s
  else s.modGroup (fun g =>
    { g with
      manager := m.src
      beatMgr := s.nowN
      step := w32 (fieldAt m.data 4 4) + 1
      commitE := if g.state.inGroup then w32 (fieldAt m.data 8 4) else g.commitE
      commitS := if g.state.inGroup then w32 (fieldAt m.data 12 4) else g.commitS })

/-- The deputy takes over (R402): a new TERM, a group Frost, a rollback to the last committed epoch. Before FORMED the members it knows
to be admitted are those whose HEARTBEAT it has had (DEDUCED, log entry 55). -/
def State.takeOver (s : State) : State :=
  let old := s.group.manager
  let s := s.modGroup (fun g =>
    { g with
      term := g.term + 1
      role := .manager
      manager := g.self
      deputy := none
      roll := none
      beatMgr := s.nowN
      waiting := [old]
      members := g.members.map (fun (m : Member) =>
        { m with admitted := m.chip != old && (g.formed || m.chip == g.self || m.beatT != 0), beatT := s.nowN }) })
  let s := (s.sendAll gtTakeover ([BitVec.ofNat 8 s.group.term.toNat] ++ bytesOf 4 s.group.epochTop.toNat)).mailReport mrNoDeputy old.toNat
  s.rollBack (s.group.commitE + 1) true true

/-- TAKEOVER (R403): the member follows the new manager; a former manager gives up its role and joins again. -/
def State.inTakeover (s : State) (m : Msg) : State :=
  if m.src = s.group.self then s
  else
    let s := s.modGroup (fun g => { g with manager := m.src, deputy := none, beatMgr := s.nowN })
    if s.group.state = .held then s.setGroup .frosted else s

/-- REPORT (R402, R407, R409 to R412, R31). -/
def State.inReport (s : State) (m : Msg) : State :=
  let code := fieldAt m.data 0 1
  let chip := chipAt m.data 1
  let epoch := w32 (fieldAt m.data 1 4)
  if s.group.role = .deputy then
    (if code = rpPeerReset ∧ chip = s.group.manager then s.takeOver else s)
  else if !s.isManager then s
  else if code = rpPeerReset then s.loseMember chip
  else if code = rpRetirement then s.loseMember m.src
  else if code = rpTimeOffset then s.mailReport mrTime m.src.toNat
  else if code = rpDelayed then
    (if !s.group.formed then s
     else
       let s := s.modMember m.src (fun e => { e with delayedT := some s.nowN })
       (s.sendAll gtWithdraw (bytesOf 4 epoch.toNat)).rollBack s.lowOpen false false)
  else if code = rpReady then
    (let s := s.modMember m.src (fun e => { e with delayedT := none })
     match s.group.roll with
     | some r => if s.group.members.any (fun e => e.delayedT.isSome) then s else (s.modGroup (fun g => { g with roll := some { r with ready := true } })).rollGo
     | none => s)
  else if code = rpSuspect then
    (let step := ((s.group.issued.find? (fun e => e.1 == epoch)).map (fun e => e.2.1)).getD 0
     let s := s.modGroup (fun g => { g with suspectE := if g.suspectE.contains epoch then g.suspectE else g.suspectE ++ [epoch] })
     let policy := match s.group.cfg with
       | some c => c.policy
       | none => 1
     if policy ≠ 0 then s.mailReport mrSuspect step.toNat
     else if s.group.roll.isSome then s
     else if s.group.replayed = some step then (s.mailReport mrSuspect step.toNat).setGroup .held
     else (s.modGroup (fun g => { g with replayed := some step })).rollBack epoch false true)
  else s

/-! ### Reception (R389) -/

/-- One group message at this device's DMP: an older TERM is discarded and counted, a newer one adopted; a former manager that
meets one joins again (R389, R403). A VERDICT is the manager's too. -/
def State.actGroup (s : State) (at_ : Nat) (port : Option Nat) (m : Msg) : State :=
  if s.group.cfg.isNone then s
  else if m.op = opAttest then s.inVerdict m
  else if termNewer s.group.term.toNat (Msg.term m) then s.modGroup (fun g => { g with stale := g.stale + 1 })
  else
    let newer := termNewer (Msg.term m) s.group.term.toNat
    let was := s.group.role == .manager
    let s := if newer then s.modGroup (fun g => { g with term := BitVec.ofNat 8 (Msg.term m) }) else s
    let s := if newer && was then
        (s.rejoin).modGroup (fun g => { g with manager := if Msg.gtype m = gtTakeover ∨ Msg.gtype m = gtMgrBeat then m.src else g.deputy.getD g.manager })
      else s
    let t := Msg.gtype m
    if t = gtJoin then s.inJoin at_ m
    else if t = gtAdmit then s.inAdmit port m
    else if t = gtRefuse then s.inRefuse m
    else if t = gtFormed then s.inFormed m
    else if t = gtJob then s.inJob m
    else if t = gtPlan then s.inPlan m
    else if t = gtHeartbeat then s.inHeartbeat m
    else if t = gtMgrBeat then s.inMgrBeat m
    else if t = gtReport then s.inReport m
    else if t = gtWithdraw then s.inWithdraw m
    else if t = gtDiscard then s.inDiscard m
    else if t = gtThaw then s.inThaw m
    else if t = gtCommit then s.inCommit m
    else if t = gtTakeover then s.inTakeover m
    else s

/-- What waited for the admission of a link's peer goes (R314). -/
def State.pumpOpened (old s : State) : State :=
  (upto 24).foldl (fun (t : State) n => if !(old.link n).admitted && (s.link n).admitted then t.pump n else t) s

/-- One group message, and the traffic of the links that it opens. -/
def State.inGroup (s : State) (at_ : Nat) (port : Option Nat) (m : Msg) : State := State.pumpOpened s (s.actGroup at_ port m)

/-- The messages that wait in this device's own queue act while its DMP runs, by fuel. -/
def State.drainN (s : State) : Nat → State
  | 0 => s
  | k + 1 =>
    match s.group.selfQ with
    | [] => s
    | (a, p, m) :: t => if (s.proc 2).runs then State.drainN ((s.modGroup (fun g => { g with selfQ := t })).inGroup a p m) k else s

def State.drain (s : State) : State := s.drainN 64

/-- A group message for this device, which arrived at `at_`: at once, or once the DMP runs and what came before it has acted. -/
def State.takeGroup (s : State) (at_ : Nat) (port : Option Nat) (m : Msg) : State :=
  let s := s.drain
  if (s.proc 2).runs ∧ s.group.selfQ.isEmpty then (s.inGroup at_ port m).drain
  else s.modGroup (fun g => { g with selfQ := g.selfQ ++ [(at_, port, m)] })

/-! ### Events -/

/-- The cut settles (R513), once the resets in progress are complete (R515): the group state is FROSTED under a group Frost; the manager's rollback goes on (R405). -/
def execFrostCutSettled (s : State) : Done :=
  .next (if s.frost.phase ≠ .cutting ∨ s.sun.recov.isSome = true then s
    else
      let s := s.frostSettle
      let s := if s.frost.holders.getLsbD hdGroup && s.group.state == .running then s.setGroup .frosted else s
      (s.rollGo).drain)

/-- The highest stage clears once its margin has held for 1 ms since it was entered, since the stage above cleared, or since the
last undervoltage warning ended (R456); the DMP, halted at stage 7, goes on. -/
def execShedStageClear (margin : MarginHeld) (s : State) : Done :=
  .next (if margin = true ∧ 0 < s.pwr.shed ∧ s.pwr.shedT + 1000000 ≤ s.nowN ∧ !(s.pwr.shed == 3 && !s.pwr.uvRails.isEmpty) then
      ((s.pwrDo State.shedOut).copyNow).drain else s)

/-- A member repeats its JOIN every 100 ms (R390). -/
def execJoinRetry (s : State) : Done :=
  .next (if s.group.state = .joining ∧ (s.proc 2).runs = true ∧ (s.group.joinT = 0 ∨ s.group.joinT + 100000000 ≤ s.nowN) then (s.sendJoin).drain else s)

/-- Every 10 ms: HEARTBEAT, and MGR_BEAT of the manager (R400). -/
def execHeartbeatInterval (s : State) : Done :=
  .next (if !s.group.state.inGroup ∨ !(s.proc 2).runs ∨ s.nowN < s.group.beatSent + 10000000 then s
    else
      let s := s.heartbeat
      let s := if s.isManager then
          s.sendAll gtMgrBeat (bytesOf 4 s.group.epochTop.toNat ++ bytesOf 4 s.group.stepNow.toNat ++ bytesOf 4 s.group.commitE.toNat
            ++ bytesOf 4 s.group.commitS.toNat)
        else s
      s.drain)

/-- Plan copying that waited goes on (R395). -/
def execPlanCopyResume (s : State) : Done := .next ((s.copyNow).drain)

/-- The DMP reads a completion record of a JOB context (R396). -/
def execPlanRecordRead (c : Fin 64) (s : State) : Done := .next ((s.readRecord c).drain)

/-- No HEARTBEAT from a member for 50 ms (R401). -/
def execMemberLost (chip : BitVec 12) (s : State) : Done :=
  .next (match s.member? chip with
    | some m => if s.isManager && (s.proc 2).runs && m.admitted && chip != s.group.self && decide (m.beatT + 50000000 ≤ s.nowN) then (s.silentMember chip).drain else s
    | none => s)

/-- No MGR_BEAT for 50 ms at the deputy (R402). -/
def execDeputyTakeover (s : State) : Done :=
  .next (if s.group.role = .deputy ∧ (s.proc 2).runs = true ∧ s.group.beatMgr + 50000000 ≤ s.nowN then (s.takeOver).drain else s)

/-- Neither MGR_BEAT nor TAKEOVER for 100 ms at a member: it Frosts itself, with holder GROUP, and enters HELD (R404). -/
def execManagerLost (s : State) : Done :=
  .next (if s.group.state.inGroup ∧ s.group.state ≠ .held ∧ !s.isManager ∧ (s.proc 2).runs = true ∧ s.group.beatMgr + 100000000 ≤ s.nowN then
      ((s.frostStart hdGroup).mailReport mrManager s.group.manager.toNat).setGroup .held
    else s)

/-- No READY within 1 s of STEP_DELAYED: the member is lost (R411). -/
def execReadyTimeout (chip : BitVec 12) (s : State) : Done :=
  .next (match s.member? chip with
    | some m => match m.delayedT with
      | some t => if s.isManager && (s.proc 2).runs && decide (t + 1000000000 ≤ s.nowN) then (s.silentMember chip).drain else s
      | none => s
    | none => s)

/-- RESET_NOTICE frames take the link DOWN (R329); the neighbour reports the chip (R408). -/
def execResetNotice (n : Fin 24) (s : State) : Done :=
  .next (let chip := (s.link n).peerChip
    let t := s.peerReset n
    if (t.link n).state = .down ∧ (s.link n).state ≠ .down then (t.report rpPeerReset (bytesOf 2 chip.toNat)).drain else t)

/-! ### Job records (R394, R480) -/

/-- The blocks of a job record, by member. -/
def jobBlocks : Nat → List Byte → List JobBlock
  | 0, _ => []
  | k + 1, bs =>
    let n := fieldAt bs 2 2
    let plans := bs.drop (4 + 64 * n)
    { chip := chipAt bs 0
      ctxs := (upto n).map (fun i => blockOf ((bs.drop (4 + 64 * i)).take 64))
      normal := plans.take 1040, check := (plans.drop 1040).take 1040, restore := (plans.drop 2080).take 1040 }
    :: jobBlocks k (plans.drop 3120)

/-- A job record that agrees with the group configuration (R480): one block per member, in MEMBER_TABLE order, within its length. -/
def jobOf (c : GroupCfg) (bs : List Byte) : Option JobRec :=
  let n := fieldAt bs 12 2
  let bl := jobBlocks n (bs.drop 32)
  let size := bl.foldl (fun k b => k + 3124 + 64 * b.ctxs.length) 32
  if n = c.members.length ∧ bl.map (fun b => b.chip) = c.members ∧ size ≤ bs.length then
    some { first := w32 (fieldAt bs 0 4), last := w32 (fieldAt bs 4 4), ckpt := w32 (fieldAt bs 8 4), blocks := bl }
  else none

end Sys2Proof.Machine
end

