-- ==== Sys2Proof/Machine/RegMap.lean ====
section
/-! DEFINITION. The register map (R435, R560, R563, R569 to R573): what stands at each window offset, what it reads as, and the
plain writable fields. -/

namespace Sys2Proof.Machine

open Sys2Proof

/-- The power domain of a register (R560). Registers whose fields are all shadowed lie in the configuration store. -/
inductive Domain
  | aon | fabric | pcie | store
  | cluster (n : Nat)
deriving DecidableEq, Repr

/-- A register: its domain, the masks of its RW and RV bits, of its SH bits and of its W1C bits. -/
structure RegInfo where
  dom : Domain
  rw  : Nat
  sh  : Nat
  w1c : Nat
deriving DecidableEq, Repr

def roReg (d : Domain) : Option RegInfo := some { dom := d, rw := 0, sh := 0, w1c := 0 }
def rwReg (d : Domain) (m : Nat) : Option RegInfo := some { dom := d, rw := m, sh := 0, w1c := 0 }
def w1cReg (d : Domain) (m : Nat) : Option RegInfo := some { dom := d, rw := 0, sh := 0, w1c := m }

/-- The block of an offset: its base, and its offset in the block (the *Register blocks* table). -/
def blockBase (off : Nat) : Nat :=
  if off < 0x100_0000 then off / 0x1_0000 * 0x1_0000
  else if off < 0x200_0000 then 0x100_0000 + (off - 0x100_0000) / 0x10_0000 * 0x10_0000
  else if off < 0x300_0000 then 0x200_0000 + (off - 0x200_0000) / 0x4_0000 * 0x4_0000
  else off / 0x1_0000 * 0x1_0000

/-- Whether a block has a wide mailbox (R564). -/
def hasWide (base : Nat) : Bool :=
  [blkTop, blkPwr, blkSec, blkSun, blkFrost, blkPerf, blkPcie].contains base
  || decide (0x200_0000 ≤ base ∧ base < 0x220_0000 ∨ 0x300_0000 ≤ base ∧ base < 0x318_0000)

def topReg : Nat → Option RegInfo
  | 0x00 => roReg .aon
  | 0x04 => roReg .aon
  | 0x08 => roReg .aon
  | 0x10 => rwReg .aon 0x3FF
  | 0x14 => roReg .aon
  | 0x20 => w1cReg .aon 0xF
  | 0x24 => roReg .aon
  | 0x28 => w1cReg .aon 0x8000_0000
  | 0x30 => w1cReg .aon 0x8000_0000
  | 0x40 => w1cReg .aon 0xC
  | 0x50 => roReg .fabric
  | 0x54 => roReg .fabric
  | 0x60 => roReg .aon
  | _ => none

/-- Registers below offset 0x100_0000 of the window, by offset, but for TOP and the mailbox buffers; of CFG_PGROUP_n the words W14 and W15,
which are read-only (R367). -/
def deviceReg (off : Nat) : Option RegInfo :=
  if off = 0x1_0000 then rwReg .fabric 1
  else if off = 0x1_0004 then roReg .fabric
  else if off = 0x1_0008 then rwReg .fabric 0xFFFF_FFFF
  else if 0x1_4000 ≤ off ∧ off < 0x1_8000 ∧ off % 4 = 0 ∧ 0x38 ≤ off % 0x40 then roReg .store
  else if off = 0x2_0000 then rwReg .aon 3
  else if off = 0x2_0004 then roReg .aon
  else if off = 0x2_0008 then w1cReg .aon 0x1C00
  else if off = 0x2_000C then roReg .aon
  else if off = 0x2_0014 then rwReg .aon 0x3_7777
  else if off = 0x3_0000 then rwReg .aon 0xFFFF
  else if off = 0x3_0004 then w1cReg .aon 0xF
  else if off = 0x4_0000 then w1cReg .aon 0x20
  else if off = 0x4_0004 then rwReg .aon 3
  else if off = 0x5_0000 then roReg .aon
  else if off = 0x5_0004 then w1cReg .aon 6
  else if 0x5_1000 ≤ off ∧ off < 0x5_2000 then rwReg .aon 0xFFFF_FFFF
  else if 0x5_2000 ≤ off ∧ off < 0x5_3000 then roReg .aon
  else if off = 0x6_0000 then roReg .aon
  else if off = 0x6_0004 then rwReg .aon 0xFFFF_FFFF
  else if off = 0x6_0008 then rwReg .aon 0xFFFF_00FF
  else if off = 0x6_000C then roReg .aon
  else if off = 0x6_0010 then w1cReg .aon 0x3F
  else if off = 0x7_0000 then rwReg .aon 0xC
  else if off = 0x7_0004 then w1cReg .aon 0x20
  else if off = 0x7_0008 then roReg .aon
  else if off = 0x8_0100 then rwReg .fabric 0x7F
  else if off = 0x8_0104 then rwReg .fabric 0xFFFF_FFFF
  else if off = 0x8_0108 then rwReg .fabric 0xFFFF_FFFF
  else if off = 0x9_0000 then roReg .aon
  else if off = 0xA_0000 then w1cReg .fabric 3
  else if off = 0xB_0000 then roReg .pcie
  else if off = 0xB_0010 then rwReg .pcie 0x1FF
  else none

/-- Registers of a cluster and its cores. -/
def clusReg (n r : Nat) : Option RegInfo :=
  if r < 0x8000 then
    (match r with
     | 0x000 => roReg (.cluster n)
     | 0x004 => w1cReg (.cluster n) 0x1F
     | 0x200 => w1cReg (.cluster n) 0x30
     | _ => none)
  else if r < 0x8_8000 then
    (match r % 0x8000 with
     | 0 => roReg (.cluster n)
     | 4 => w1cReg (.cluster n) 0xF
     | 8 => roReg (.cluster n)
     | _ => none)
  else none

/-- Registers of an HBM controller with its Pruner. -/
def hbmReg : Nat → Option RegInfo
  | 0x0_0000 => roReg .fabric
  | 0x0_0104 => w1cReg .fabric 0xF
  | 0x0_0108 => roReg .fabric
  | 0x2_0000 => roReg .fabric
  | 0x2_0004 => w1cReg .fabric 0xF
  | _ => none

def linkReg : Nat → Option RegInfo
  | 0 => rwReg .fabric 3
  | 4 => roReg .fabric
  | 8 => w1cReg .fabric 0xFF
  | _ => none

/-- Whether an offset in a block is a register of its wide mailbox (R564). -/
def wideReg (r : Nat) : Bool :=
  [0xF00, 0xF04, 0xF08, 0xF20, 0xF24, 0xF28, 0xF2C, 0xF30, 0xF34, 0xF38, 0xF3C].contains r

/-- The register at a window offset, where there is one (R561). -/
def regInfo (off : Nat) : Option RegInfo :=
  let base := blockBase off
  let r := off - base
  match shField off with
  | some (m, _) => some { dom := .store, rw := 0, sh := m, w1c := 0 }
  | none =>
    if hasWide base && wideReg r then some { dom := .aon, rw := if r = 0xF00 then 0xFFFF_FFFF else 0, sh := 0, w1c := if r = 0xF08 then 8 else 0 }
    else if off < 0x1_0000 then topReg off
    else if off < 0x100_0000 then deviceReg off
    else if off < 0x180_0000 then clusReg ((off - 0x100_0000) / 0x10_0000) r
    else if 0x200_0000 ≤ off ∧ off < 0x220_0000 then hbmReg r
    else if 0x300_0000 ≤ off ∧ off < 0x318_0000 then linkReg r
    else none

/-- Whether a domain is powered (R560). -/
def State.powered (s : State) : Domain → Bool
  | .aon => true
  | .store => true
  | .fabric => s.pwr.railsOn.contains .core
  | .pcie => s.pwr.railsOn.contains .pcieA && s.pwr.railsOn.contains .pcieH
  | .cluster n => s.pwr.railsOn.contains .core && !(s.cluster n).switchOff

/-! ### Status registers put together -/

def GState.code : GState → Nat
  | .alone => 0
  | .badConfig => 1
  | .joining => 2
  | .refused => 3
  | .admitted => 4
  | .running => 5
  | .frosted => 6
  | .waitRejoin => 7
  | .held => 8

def Role.code : Role → Nat
  | .none => 0
  | .worker => 1
  | .deputy => 2
  | .manager => 3

/-- TOP_GROUP_STAT. -/
def State.groupStat (s : State) : Nat :=
  let g := s.group
  fieldVal (if g.role = .manager then g.self else g.manager).toNat 20 + fieldVal g.term.toNat 12 + fieldVal g.reason 8
  + fieldVal g.role.code 6 + g.state.code

/-- SUN_STAT. -/
def State.sunStat (s : State) : Nat :=
  fieldVal (satAt 4 s.recentEsc.length) 24 + fieldVal s.sun.lastUnit 16 + fieldVal s.sun.lastKind 12 + fieldVal (bnat s.sun.parked) 3
  + fieldVal (bnat s.sun.replay.isSome) 2 + fieldVal (bnat s.sun.recov.isSome) 1

def FrostPhase.code : FrostPhase → Nat
  | .running => 0
  | .cutting => 1
  | .frozen => 2
  | .thawing => 3

/-- FROST_STAT. -/
def FrostState.stat (f : FrostState) : Nat :=
  fieldVal f.holders.toNat 16 + fieldVal (bnat f.thawIgn) 5 + fieldVal (bnat f.settled) 4 + f.phase.code

/-- MBX_STAT. -/
def MbxState.stat (m : MbxState) : Nat :=
  fieldVal m.reason.toNat 16 + fieldVal m.status.toNat 8 + fieldVal (bnat m.ignored) 2 + fieldVal (bnat m.done) 1 + bnat m.busy

/-- PCIE_STAT. -/
def State.pcieStat (s : State) : Nat :=
  fieldVal s.pcie.rate 8 + fieldVal s.pcie.width 3 + fieldVal (bnat s.pcie.flitMode) 2 + fieldVal (bnat s.mbx.opened) 1 + bnat s.pcie.l0

/-- CLUS_STAT (R573). -/
def State.clusStat (s : State) (n : Nat) : Nat :=
  let k := s.cluster n
  let inServ := (upto 16).foldl (fun v c => v + fieldVal (bnat ((s.core (16 * n + c)).inService && !(s.core (16 * n + c)).retired)) c) 0
  fieldVal inServ 16 + fieldVal (s.ctxCount n) 8 + fieldVal (bnat k.switchOff) 2 + fieldVal (bnat k.resetting) 1
  + bnat (k.issueHeld || !(s.proc (3 + n)).runs)

/-- CORE_STAT (R573): IDLE while no array operation runs (R113). -/
def State.coreStat (s : State) (k : Nat) : Nat :=
  let c := s.core k
  let mine := s.opsOnCore k
  let sp := match c.bound with
    | some (ctx, num) => fieldVal num 24 + fieldVal ctx 16 + fieldVal 1 1
    | none => fieldVal 0xFF 24
  let gated := !mine.any (fun o => [0x10, 0x11, 0x29].contains (dOpcode o.desc))
  sp + fieldVal (bnat c.retired) 3 + fieldVal (bnat gated) 2 + bnat (!mine.isEmpty)

/-- CLUS_RAKE_STAT. -/
def State.rakeStat (s : State) (n : Nat) : Nat :=
  let rk (o : Op) : Bool := dOpcode o.desc == 0x3C && o.cluster == n
  let dg (o : Op) : Bool := o.phase == .digest && s.digestCluster o == n
  (s.cluster n).rakeEvent.toNat + fieldVal (bnat (s.digPaused n)) 3 + fieldVal (bnat (s.rakePaused n)) 2
  + fieldVal (bnat (s.ops.any dg)) 1 + bnat (s.ops.any rk)

/-- HBM_STAT (R573, R253). -/
def State.hbmStat (s : State) (n : Nat) : Nat :=
  let h := s.hbm n
  fieldVal h.tempC.toNat 16 + fieldVal (bnat (decide (3 ≤ s.pwr.shed) || h.selfRefresh)) 3 + fieldVal (bnat h.selfRefresh) 2
  + fieldVal (bnat h.trainFail) 1 + bnat h.trained

/-- PRN_STAT: shares waiting, the share that runs. -/
def State.prnStat (s : State) (n : Nat) : Nat :=
  let left := (s.pruneQ.filter (fun p => !unitAt true p.done n)).length
  let run := s.prNext n s.pruneQ []
  let scan := match run with
    | some (p, _) => p.phase == .scan || p.phase == .norm
    | none => false
  let paused := s.sweepPaused n && s.pruneQ.any (fun p => p.phase == .sweep && !unitAt true p.done n)
  fieldVal (left - bnat run.isSome) 16 + fieldVal (bnat paused) 3 + fieldVal (bnat (s.pruneQ.any (fun p => p.phase == .exchange))) 2
  + fieldVal (bnat scan) 1 + bnat run.isSome

/-- TOP_RESET_CTL as the units use it. -/
def State.resetCtl (s : State) : Nat :=
  fieldVal (s.votes.resetCold.vote 0).toNat 9 + fieldVal (s.votes.resetWarm.vote 0).toNat 8 + (s.votes.resetCluster.vote 0).toNat

/-- LINK_CTL of a port. -/
def State.linkCtl (s : State) (n : Nat) : Nat := fieldVal (bnat (s.allowX2 n)) 1 + bnat (s.linkOn n)

/-- A word of the mailbox buffers. -/
def bufWord (cells : List Host.Cell) (a : Nat) : Nat := natOf ((upto 4).map (fun i => sparseGet 0 cells (a + i)))

/-! ### Reading -/

/-- What a register below the units' arrays reads as, by offset. -/
def State.readDevice (s : State) (off : Nat) : Nat :=
  if off = 0x00 then 0x4C81_1111
  else if off = 0x04 then 0x11
  else if off = 0x08 then s.start.chipId.toNat
  else if off = 0x10 then s.resetCtl
  else if off = 0x14 then s.start.resetWhy
  else if off = 0x20 then s.regs.topEvent.toNat
  else if off = 0x24 then s.regs.fixCount.toNat
  else if off = 0x28 then s.regs.voteStat.toNat
  else if off = 0x30 then s.regs.accessErr.toNat
  else if off = 0x40 then s.timeStat
  else if off = 0x50 then s.groupStat
  else if off = 0x54 then s.group.epochRecv.toNat
  else if off = 0x60 then s.startStat
  else if off = 0x1_0000 then fieldVal (bnat s.regs.dirty) 1 + (s.votes.swap.vote 0).toNat
  else if off = 0x1_0004 then s.regs.gen.toNat
  else if off = 0x1_0008 then s.regs.swapEpoch.toNat
  else if off = 0x2_0000 then s.modeReq
  else if off = 0x2_0008 then s.pwrStat
  else if off = 0x2_000C then s.pwr.refuse.toNat
  else if off = 0x2_0014 then s.pwr.wakeCfg.toNat
  else if off = 0x3_0000 then s.therm.cfg.toNat
  else if off = 0x3_0004 then s.thermStat
  else if off = 0x4_0000 then s.secStat
  else if off = 0x4_0004 then fieldVal (s.votes.flashLock.vote 1).toNat 1 + (s.votes.debugLock.vote 1).toNat
  else if off = 0x5_0004 then s.mbx.stat
  else if 0x5_1000 ≤ off ∧ off < 0x5_2000 then bufWord s.mbx.req (off - 0x5_1000)
  else if 0x5_2000 ≤ off ∧ off < 0x5_3000 then bufWord s.mbx.resp (off - 0x5_2000)
  else if off = 0x6_0004 then fieldVal (s.votes.clusterMs.vote 0x64).toNat 16 + (s.votes.coreMs.vote 0x32).toNat
  else if off = 0x6_0008 then fieldVal (s.votes.prunerMs.vote 0xC8).toNat 16 + (s.votes.runnerMs.vote 0x0A).toNat
  else if off = 0x6_000C then s.sunStat
  else if off = 0x6_0010 then s.sun.event.toNat
  else if off = 0x7_0000 then fieldVal (s.votes.pinEn.vote 1).toNat 3 + fieldVal (bnat s.frost.stateWrite) 2
  else if off = 0x7_0004 then s.frost.stat
  else if off = 0x7_0008 then s.frost.id
  else if off = 0x8_0100 then s.regs.perfFilter.toNat
  else if off = 0x8_0104 then s.regs.perfTag.toNat
  else if off = 0x8_0108 then s.regs.perfTagOp.toNat
  else if off = 0x9_0000 then s.log.head.toNat
  else if off = 0xA_0000 then s.regs.trlEvent.toNat
  else if off = 0xB_0000 then s.pcieStat
  else if off = 0xB_0010 then s.regs.bar2Base.toNat
  else 0

/-- What a register reads as, but for the wide mailboxes: SH fields give the active value (R435). -/
def State.regVal (s : State) (off : Nat) : Nat :=
  let r := off - blockBase off
  if (shField off).isSome then s.cfg off
  else if off < 0x100_0000 then s.readDevice off
  else if off < 0x200_0000 then
    let n := (off - 0x100_0000) / 0x10_0000
    if r < 0x8000 then
      (if r = 0 then s.clusStat n else if r = 4 then (s.cluster n).event.toNat else s.rakeStat n)
    else
      let k := 16 * n + (r / 0x8000 - 1)
      if r % 0x8000 = 0 then s.coreStat k else if r % 0x8000 = 4 then (s.core k).event.toNat else (s.core k).run.toNat
  else if off < 0x300_0000 then
    let n := (off - 0x200_0000) / 0x4_0000
    let h := s.hbm n
    if r = 0 then s.hbmStat n else if r = 0x104 then h.errStat.toNat else if r = 0x108 then fieldVal h.scrubP 21 + h.scrubFrame
    else if r = 0x2_0000 then s.prnStat n else h.prnEvent.toNat
  else
    let n := (off - 0x300_0000) / 0x1_0000
    if r = 0 then s.linkCtl n else if r = 4 then (s.link n).stat else (s.link n).event.toNat

/-! ### Plain writable fields -/

/-- Write the RW and RV fields of a register that have no effect beyond their value. A write of 0b11 to MODE is ignored (R439). -/
def State.putPlain (s : State) (off v : Nat) : State :=
  let w16 (x : Nat) : Triple := .of (BitVec.ofNat 16 x)
  if off = 0x1_0008 then { s with regs := { s.regs with swapEpoch := BitVec.ofNat 32 v } }
  else if off = 0x2_0000 then (if v % 4 = 3 then s else { s with votes := { s.votes with mode := w16 (v % 4) } })
  else if off = 0x2_0014 then { s with pwr := { s.pwr with wakeCfg := BitVec.ofNat 32 (v &&& 0x3_7777) } }
  else if off = 0x3_0000 then { s with therm := { s.therm with cfg := BitVec.ofNat 32 (v &&& 0xFFFF) } }
  else if off = 0x4_0004 then { s with votes := { s.votes with flashLock := w16 (bitsOf v 1 1), debugLock := w16 (bitsOf v 0 0) } }
  else if off = 0x6_0004 then { s with votes := { s.votes with clusterMs := w16 (bitsOf v 31 16), coreMs := w16 (bitsOf v 15 0) } }
  else if off = 0x6_0008 then { s with votes := { s.votes with prunerMs := w16 (bitsOf v 31 16), runnerMs := w16 (bitsOf v 7 0) } }
  else if off = 0x7_0000 then
    { s with votes := { s.votes with pinEn := w16 (bitsOf v 3 3) }, frost := { s.frost with stateWrite := bitOf v 2 } }
  else if off = 0x8_0100 then { s with regs := { s.regs with perfFilter := BitVec.ofNat 32 (v &&& 0x7F) } }
  else if off = 0x8_0104 then { s with regs := { s.regs with perfTag := BitVec.ofNat 32 v } }
  else if off = 0x8_0108 then { s with regs := { s.regs with perfTagOp := BitVec.ofNat 32 v } }
  else if off = 0xB_0010 then { s with regs := { s.regs with bar2Base := BitVec.ofNat 32 (v &&& 0x1FF) } }
  else s

/-- A write to the shadow set (R435). -/
def State.putShadow (s : State) (off v mask : Nat) : State :=
  { s with regs := { s.regs with shadow := cfgPut s.regs.shadow off (BitVec.ofNat 32 (v &&& mask)), dirty := true } }

/-- Write a register's W1C bits (the *Register access codes* table): a bit written as 1 is cleared. Clearing VALID of
TOP_VOTE_STAT and TOP_ACCESS_ERR clears the whole record. -/
def State.clearBits (s : State) (off v : Nat) : State :=
  let clr (w : W32) (m : Nat) : W32 := w &&& ~~~(BitVec.ofNat 32 (v &&& m))
  let n := off - blockBase off
  if off = 0x20 then { s with regs := { s.regs with topEvent := clr s.regs.topEvent 0xF } }
  else if off = 0x28 then (if bitOf v 31 then { s with regs := { s.regs with voteStat := 0 } } else s)
  else if off = 0x30 then (if bitOf v 31 then { s with regs := { s.regs with accessErr := 0 } } else s)
  else if off = 0x40 then { s with time := { s.time with stepped := s.time.stepped && !bitOf v 3, lostFlag := s.time.lostFlag && !bitOf v 2 } }
  else if off = 0x2_0008 then
    { s with pwr := { s.pwr with
      regFault := s.pwr.regFault && !bitOf v 12
      uvSeen := s.pwr.uvSeen && !bitOf v 11
      shedSeen := s.pwr.shedSeen && !bitOf v 10 } }
  else if off = 0x3_0004 then
    { s with therm := { s.therm with
      tripped := s.therm.tripped && !bitOf v 3
      overTj := s.therm.overTj && !bitOf v 2
      up := s.therm.up && !bitOf v 1
      downEv := s.therm.downEv && !bitOf v 0 } }
  else if off = 0x4_0000 then { s with sec := { s.sec with rollback := s.sec.rollback && !bitOf v 5 } }
  else if off = 0x5_0004 then { s with mbx := { s.mbx with ignored := s.mbx.ignored && !bitOf v 2, done := s.mbx.done && !bitOf v 1 } }
  else if off = 0x6_0010 then { s with sun := { s.sun with event := clr s.sun.event 0x3F } }
  else if off = 0x7_0004 then { s with frost := { s.frost with thawIgn := s.frost.thawIgn && !bitOf v 5 } }
  else if off = 0xA_0000 then { s with regs := { s.regs with trlEvent := clr s.regs.trlEvent 3 } }
  else if 0x100_0000 ≤ off ∧ off < 0x180_0000 then
    let c := (off - 0x100_0000) / 0x10_0000
    if n = 4 then s.modCluster c (fun k => { k with event := clr k.event 0x1F })
    else if n = 0x200 then s.modCluster c (fun k => { k with rakeEvent := clr k.rakeEvent 0x30 })
    else s.modCore (16 * c + (n / 0x8000 - 1)) (fun k => { k with event := clr k.event 0xF })
  else if 0x200_0000 ≤ off ∧ off < 0x220_0000 then
    let h := (off - 0x200_0000) / 0x4_0000
    if n = 0x104 then s.modHbm h (fun k => { k with errStat := clr k.errStat 0xF })
    else s.modHbm h (fun k => { k with prnEvent := clr k.prnEvent 0xF })
  else if 0x300_0000 ≤ off ∧ off < 0x318_0000 then s.modLink ((off - 0x300_0000) / 0x1_0000) (fun l => { l with event := clr l.event 0xFF })
  else s

end Sys2Proof.Machine
end

