-- ==== Sys2Proof/Machine/Wide.lean ====
section
/-! DEFINITION. Failed register accesses (R562), the wide mailboxes (R564 to R568) and the PERF filter registers (R540). -/

namespace Sys2Proof.Machine

open Sys2Proof

/-! ### Failed accesses (R556, R557, R560 to R562) -/

/-- TOP_ACCESS_ERR.ORIGIN. -/
def originCode : Origin → Nat
  | .secp => 0
  | .firmware => 0
  | .bar4 => 1
  | .sideband => 2
  | .jtag => 3

/-- TOP_ACCESS_ERR.CAUSE. -/
def aeOff : Nat := 0
def aeReserved : Nat := 1
def aeOrigin : Nat := 2
def aeSize : Nat := 3

/-- Record a refused or failed access (R562): the first is kept, later ones set OVERFLOW; every one is counted. -/
def State.accessError (s : State) (o : Origin) (cause off : Nat) : State :=
  let old := s.regs.accessErr
  let v := fieldVal 1 31 + fieldVal cause 28 + fieldVal (originCode o) 26 + off % 2 ^ 26
  let s := s.count blkTop 0x04 1
  { s with regs := { s.regs with
    accessErr := if old.getLsbD 31 then setBits old (2 ^ 30) else BitVec.ofNat 32 v
    topEvent := setBits s.regs.topEvent 2 } }

/-! ### The wide mailbox (R564 to R568) -/

/-- The bank of an origin (R564). -/
def originBank : Origin → Nat
  | .secp => 0
  | .firmware => 0
  | .bar4 => 1
  | .sideband => 2
  | .jtag => 2

/-- A bank at reset. -/
def noBank : WideBank := { sel := 0, valid := false, noSel := false, err := false, overrun := false, data := [] }

def State.bank (s : State) (base bank : Nat) : WideBank := sparseGet noBank s.banks (bankKey base bank)
def State.putBank (s : State) (base bank : Nat) (b : WideBank) : State :=
  { s with banks := sparsePut noBank s.banks (bankKey base bank) b }

/-- Whether a block is one of the HBM or LINK arrays. -/
def isHbmBlk (base : Nat) : Bool := decide (0x200_0000 ≤ base ∧ base < 0x220_0000)
def isLinkBlk (base : Nat) : Bool := decide (0x300_0000 ≤ base ∧ base < 0x318_0000)

/-- Whether a selection is in a block's catalogue (R568); a PERF selection also needs a counter kept at its scope and an index
in range (R536, R538). -/
def inCatalogue (base sel : Nat) : Bool :=
  if base = blkTop then decide (sel ≤ 5)
  else if base = blkPwr then decide (sel ≤ 0x14)
  else if base = blkSec then decide (sel ≤ 6)
  else if base = blkSun then decide (sel ≤ 0x11)
  else if base = blkFrost then decide (sel ≤ 3)
  else if base = blkPcie then decide (sel ≤ 5)
  else if base = blkPerf then
    let sc := bitsOf sel 31 28
    let i := bitsOf sel 23 16
    (perfScopes (bitsOf sel 7 0)).contains sc
      && decide (i < (if sc = 0 then 1 else if sc = 1 ∨ sc = 5 then 8 else if sc = 3 then 64 else 128))
  else if isHbmBlk base then decide (sel ≤ 0x0A ∨ 0x20 ≤ sel ∧ sel ≤ 0x2A)
  else if isLinkBlk base then decide (sel ≤ 0x0C ∨ 0x10 ≤ sel ∧ sel ≤ 0x16)
  else false

/-- The domain in which a block's wide values lie (the *Register blocks* table). -/
def wideDomain (base : Nat) : Domain :=
  if base = blkPcie then .pcie else if base = blkPerf ∨ isHbmBlk base = true ∨ isLinkBlk base = true then .fabric else .aon

/-- A 64-bit value in the data words. -/
def words64 (v : Nat) : List W32 := [BitVec.ofNat 32 v, BitVec.ofNat 32 (v / 2 ^ 32)]

/-- `n` words of a number, the lowest first. -/
def wordsOf (n v : Nat) : List W32 := (upto n).map (fun i => BitVec.ofNat 32 (v / 2 ^ (32 * i)))

/-- A PERF sample (R542). -/
def State.perfSample (s : State) (sel : Nat) : List W32 :=
  let sc := bitsOf sel 31 28
  let i := bitsOf sel 23 16
  let v := sparseGet 0 s.perf (perfKey sc i (bitsOf sel 7 0))
  let c := s.core i
  let cmd := sc == 4
  words64 v
  ++ [if cmd then c.tagIdx else 0,
      if cmd then (match c.tagCtx with
        | some x => BitVec.ofNat 32 (x + fieldVal 1 31)
        | none => 0) else 0,
      if cmd then c.tagEpoch else if sc = 5 then (s.cluster i).tagEpoch else 0,
      if cmd then BitVec.ofNat 32 (c.tagLayer.toNat + fieldVal c.tagOper.toNat 16) else 0]
  ++ words64 s.nowN

/-- The words that a capture of a selection takes. -/
def State.wideValue (s : State) (base sel : Nat) : List W32 :=
  if base = blkPerf then s.perfSample sel
  else if base = blkTop ∧ sel = 0 then words64 s.nowN
  else if base = blkTop ∧ sel = 1 then words64 s.sec.serial.toNat
  else if base = blkTop ∧ (sel = 2 ∨ sel = 3) then
    (match s.group.cfg with
     | some g => wordsOf 8 (g.digest.toNat / 2 ^ (256 * (sel - 2)))
     | none => [])
  else words64 (s.counter base sel)

/-- SNAP (R566, R567): ignored over a capture that stands; else a capture, NOSEL, or ERR where the source is off. -/
def State.wideSnap (s : State) (o : Origin) (base : Nat) : State :=
  let b := s.bank base (originBank o)
  if b.valid then
    (s.putBank base (originBank o) { b with overrun := true }).modRegs (fun r => { r with topEvent := setBits r.topEvent 1 })
  else
    let sel := b.sel.toNat
    if !inCatalogue base sel then s.putBank base (originBank o) { b with valid := true, noSel := true, err := false, data := [] }
    else if !s.powered (wideDomain base) then
      (s.putBank base (originBank o) { b with valid := true, err := true, noSel := false, data := List.replicate 8 0xFFFF_FFFF }).accessError o aeOff (base + 0xF04)
    else s.putBank base (originBank o) { b with valid := true, noSel := false, err := false, data := s.wideValue base sel }

/-- DONE (R566): the capture is gone; without one, nothing. -/
def State.wideDone (s : State) (o : Origin) (base : Nat) : State :=
  let b := s.bank base (originBank o)
  if b.valid then s.putBank base (originBank o) { b with valid := false, noSel := false, err := false, data := [] } else s

/-- Write a wide mailbox register, by its offset in the block: DONE acts before SNAP (R567). -/
def State.wideWrite (s : State) (o : Origin) (base r v : Nat) : State :=
  let b := s.bank base (originBank o)
  if r = 0xF00 then s.putBank base (originBank o) { b with sel := BitVec.ofNat 32 v }
  else if r = 0xF04 then
    let s := if bitOf v 1 then s.wideDone o base else s
    if bitOf v 0 then s.wideSnap o base else s
  else if r = 0xF08 then (if bitOf v 3 then s.putBank base (originBank o) { b with overrun := false } else s)
  else s

/-- Read a wide mailbox register, by its offset in the block. -/
def State.wideRead (s : State) (o : Origin) (base r : Nat) : Nat :=
  let b := s.bank base (originBank o)
  if r = 0xF00 then b.sel.toNat
  else if r = 0xF04 then 0
  else if r = 0xF08 then fieldVal (bnat b.overrun) 3 + fieldVal (bnat b.err) 2 + fieldVal (bnat b.noSel) 1 + bnat b.valid
  else (unitAt 0 b.data ((r - 0xF20) / 4)).toNat

/-! ### The PERF filters (R540) -/

/-- A write to a PERF filter register: every TAGGED set is reset at one moment, its epoch one higher. -/
def State.perfWrite (s : State) (off v : Nat) : State :=
  let s := (upto 8).foldl (fun (t : State) n => t.perfClear 5 n) (s.putPlain off v)
  { s with clusters := s.clusters.map (fun (k : Cluster) => { k with tagEpoch := k.tagEpoch + 1 }) }

end Sys2Proof.Machine
end

