-- ==== Sys2Proof/Machine/Start.lean ====
section
/-! DEFINITION. The start (R413 to R434, R442, R443, R582, R584, R587 to R590): power-up, the stages, their failures, reference
clocks, and the boundary-scan instructions that hold it. -/

namespace Sys2Proof.Machine

open Sys2Proof

/-! ### Power-up (R416 to R418) -/

/-- ROM delay in ns before the step that follows a position: positions 0 to 7 are the steps 2, 3, 4, 5a, 5b, 5c, 6, 7. -/
def romDelay : Nat → Nat
  | 0 => 500000
  | 1 => 500000
  | 2 => 1000000
  | 3 => 500000
  | 4 => 200000
  | 5 => 200000
  | 6 => 500000
  | _ => 500000

/-- The delay with its extension (R417): bytes 80 to 86 lengthen the steps after position 1 on. -/
def State.stepDelay (s : State) (pos : Nat) : Nat :=
  romDelay pos + (if pos = 0 then 0 else unitAt 0 s.start.seqExt (pos - 1) * 100000)

/-- The requests of the step that follows a position. -/
def stepRails : Nat → List (Rail × Nat)
  | 1 => [(.sram, 1)]
  | 2 => [(.core, 620)]
  | 3 => [(.hbmVpp, 1)]
  | 4 => [(.hbmVdd, 1)]
  | 5 => [(.hbmVddq, 1)]
  | 6 => [(.runA, 1), (.runH, 1)]
  | 7 => [(.pcieA, 1), (.pcieH, 1)]
  | _ => []

/-- Read the power-sequencing extension from the flash (R417). -/
def State.readExt (s : State) : State :=
  let e := (s.flashRead 80 7).map BitVec.toNat
  let bad := e.any (fun v => decide (40 < v)) || decide (40 < e.foldl (· + ·) 0)
  { s with start := { s.start with
    seqExt := if bad then [] else e
    pseqIgn := bad
    pseqExt := !bad && e.any (fun v => decide (0 < v)) } }

/-- A processor runs from its ROM or its image. -/
def State.runProc (s : State) (i slot : Nat) : State :=
  s.modProc i (fun _ => { runs := true, slot := slot, beatT := s.nowN, lastRun := none })

/-- A step's delay has passed: its requests go out (R416). The SECP and PMP come on from AON at once. -/
def execPowerUpStep (s : State) : Done :=
  let pos := s.start.seqPos
  .next (if !s.start.good ∨ s.start.halted ∨ s.therm.tripPin ∨ 8 ≤ pos ∨ s.pwr.reqs.any (fun r => (stepRails pos).any (fun e => e.1 == r.rail))
      ∨ s.nowN < s.start.seqT + s.stepDelay pos then s
    else if pos = 0 then
      let t := ((s.runProc 0 0).runProc 1 0).readExt
      { t with start := { t.start with seqPos := 1, seqT := s.nowN } }
    else s.pwrDo (fun t => (stepRails pos).foldl (fun (u : State) e => u.askReg e.1 e.2) t))

/-- Stage 0 (R413, R419). -/
def State.stage0 (s : State) : State :=
  let s : State := { s with pcie := { s.pcie with training := !s.pcie.perst } }
  s.logEntry srcAon 1 0x0001 [0, s.startStat]

/-- A regulator acknowledges its request (R442): the rail is as asked; the power-up step ends with its last request (R416). -/
def State.ackReg (s : State) (r : Rail) : State :=
  match s.pwr.reqs.find? (fun q => q.rail == r) with
  | none => s
  | some q =>
    let s : State := { s with pwr := { s.pwr with
      reqs := s.pwr.reqs.filter (fun e => e.rail != r)
      coreMv := if r = .core then q.mv else s.pwr.coreMv
      railsOn := if q.mv = 0 then s.pwr.railsOn.filter (fun e => e != r)
                 else if s.pwr.railsOn.contains r then s.pwr.railsOn else s.pwr.railsOn ++ [r] } }
    let mine := stepRails s.start.seqPos
    if s.start.halted ∨ !mine.any (fun e => e.1 == r) ∨ s.pwr.reqs.any (fun e => mine.any (fun x => x.1 == e.rail)) then s
    else
      let s : State := { s with start := { s.start with seqPos := s.start.seqPos + 1, seqT := s.nowN } }
      if s.start.seqPos = 8 then s.stage0 else s

def execRegulatorAck (r : Rail) (s : State) : Done := .next (s.pwrDo (fun t => t.ackReg r))

/-- FAIL_DETAIL of a regulator fault (R418): the step, and the regulator within it; both when neither of a pair acknowledged. -/
def railDetail (r : Rail) (both : Bool) : Nat :=
  match r with
  | .sram => 0x03
  | .core => 0x04
  | .hbmVpp => 0x15
  | .hbmVdd => 0x25
  | .hbmVddq => 0x35
  | .runA => if both then 0x36 else 0x16
  | .runH => if both then 0x36 else 0x26
  | .pcieA => if both then 0x37 else 0x17
  | .pcieH => if both then 0x37 else 0x27

/-- The other rail of a Group Command. -/
def partner : Rail → Option Rail
  | .runA => some .runH
  | .runH => some .runA
  | .pcieA => some .pcieH
  | .pcieH => some .pcieA
  | _ => none

def failRegulator : Nat := 0x0A

/-- A regulator fault (R418, R443): in the power-up sequence it stops there; later the device stops at Stage 0. -/
def State.regulatorFault (s : State) (r : Rail) : State :=
  let both := match partner r with
    | some p => s.pwr.reqs.any (fun q => q.rail == p)
    | none => false
  let d := railDetail r both
  let s : State := { s with pwr := { s.pwr with reqs := s.pwr.reqs.filter (fun q => q.rail != r && some q.rail != partner r) } }
  if s.start.seqPos < 8 then s.halt failRegulator d
  else
    let s := (s.logEntry srcAon sevFatal 0x7011 [fcRegulator, 0, 0, 0]).quiesce false
    ({ s with pwr := { s.pwr with regFault := true } }).halt failRegulator d

/-- No acknowledgement for 1 ms: sent again, three times at most, then a regulator fault (R442). -/
def State.retryReg (s : State) (r : Rail) : State :=
  match s.pwr.reqs.find? (fun q => q.rail == r) with
  | none => s
  | some q =>
    if s.nowN < q.sentAt + 1000000 then s
    else if q.retries < 3 then
      let s : State := { s with pwr := { s.pwr with
        reqs := modFirst (fun e => e.rail == r) (fun e => { e with retries := e.retries + 1, sentAt := s.nowN }) s.pwr.reqs } }
      (s.count blkPwr 0x10 1).emit (.regulator r q.mv)
    else s.regulatorFault r

def execRegulatorRetry (r : Rail) (s : State) : Done := .next (s.pwrDo (fun t => t.retryReg r))

def allRails : List Rail := [.sram, .core, .hbmVpp, .hbmVdd, .hbmVddq, .runA, .runH, .pcieA, .pcieH]

/-- PMB_ALERT_N falls: STATUS_WORD of every regulator is read (R587). -/
def execPmbAlert (s : State) : Done := .next (allRails.foldl (fun (t : State) r => t.emit (.readStatus r)) s)

/-! ### PWR_GOOD (R49, R413, R582, R585) -/

/-- PWR_GOOD rises: the time base and the sequence start; SB_ADDR is sampled; THERMTRIP_N is released. -/
def execPwrGoodRise (sbAddr : BitVec 3) (s : State) : Done :=
  .next (if s.start.good then s
    else
      let s := if s.therm.tripPin then s.emit (.thermTrip false) else s
      { s with
        time := { s.time with now := 0 }
        therm := { s.therm with tripPin := false }
        start := { s.start with good := true, sbAddr := sbAddr, seqPos := 0, seqT := 0 } })

/-- The loss of PWR_GOOD: every regulator is told to turn off; everything is as before the first rise, but for the flash, the
pins, and what waits or has left. -/
def State.powerLoss (s : State) : State :=
  let s := allRails.foldl (fun (t : State) r => t.emit (.regulator r 0)) s
  let r := State.reset
  { r with
    pending := s.pending
    free := s.free
    flash := { r.flash with cells := s.flash.cells, rpmc := s.flash.rpmc, dumpNext := s.flash.dumpNext }
    time := { r.time with refLost := s.time.refLost }
    therm := { r.therm with tripPin := s.therm.tripPin }
    pcie := { r.pcie with perst := s.pcie.perst }
    runref := s.runref
    out := s.out }

/-- PWR_GOOD is low for a time (R582): a pulse below 1 us is ignored, 10 us or more is its loss; between them the device may do
either (log entry 5). -/
def execPwrGoodFall (lowNs : Nat) (s : State) : Done :=
  .next (if !s.start.good ∨ lowNs < 1000 then s
    else if 10000 ≤ lowNs then s.powerLoss
    else
      let (b, s) := s.takeByte
      if b.getLsbD 0 then s.powerLoss else s)

/-! ### Sections of the seed image (R321, R322, R331, R332, R422 to R426) -/

/-- A directory entry: TYPE, OPTIONAL, OFFSET, LENGTH, digest. -/
structure Section where
  ty     : Nat
  opt    : Bool
  off    : Nat
  len    : Nat
  digest : Block
deriving DecidableEq, Repr

def sectionAt (h : List Byte) (i : Nat) : Section :=
  let b := (h.drop (96 + 80 * i)).take 80
  { ty := fieldAt b 0 2, opt := bitOf (fieldAt b 2 2) 0, off := fieldAt b 4 4, len := fieldAt b 8 4, digest := blockOf (b.drop 16) }

def seedSections (h : List Byte) : List Section := (upto (min 16 (fieldAt h 6 2))).map (sectionAt h)

def tyConfig : Nat := 1
def tyPorts : Nat := 2
def tyRoutes : Nat := 3
def tySets : Nat := 4
def tyGroup : Nat := 5
def tyWake : Nat := 6
def knownType (t : Nat) : Bool := decide (1 ≤ t ∧ t ≤ 6)

/-- Whether a directory entry is refused (R423): its type, a second one of its type, its place, its digest. -/
def State.sectionBad (s : State) (l : List Section) (e : Section) : Bool :=
  (!knownType e.ty && !e.opt)
  || decide (1 < (l.filter (fun x => x.ty == e.ty)).length)
  || (knownType e.ty && (decide (e.off < 0x4_0000 ∨ 0x1C4_0000 < e.off + e.len) || digestOf (s.flashRead e.off e.len) != bytesOf 64 e.digest.toNat))

/-- The bytes of a section, where it is present. -/
def State.sectionOf (s : State) (l : List Section) (ty : Nat) : Option (List Byte) :=
  (l.find? (fun e => e.ty == ty)).map (fun e => s.flashRead e.off e.len)

/-- The port table (R321). -/
def portTable (bs : List Byte) : List PortEntry :=
  (upto 24).map (fun i =>
    let f := fieldAt bs (8 * i + 3) 1
    { peerChip := BitVec.ofNat 16 (fieldAt bs (8 * i) 2), peerPort := BitVec.ofNat 8 (fieldAt bs (8 * i + 2) 1)
      enable := bitOf f 0, syncPar := bitOf f 1, allowX2 := bitOf f 2 })

/-- The routing table, entries of other value than 0 (R322). -/
def routingTable (bs : List Byte) : List (Nat × W16) :=
  ((upto 4096).map (fun i => (i, BitVec.ofNat 16 (fieldAt bs (2 * i) 2)))).filter (fun e => e.2 != 0)

/-- Whether a routing entry is refused (R322): the device's own entry is ignored. -/
def routeBad (self : Nat) (e : Nat × W16) : Bool :=
  let v := e.2.toNat
  let h := bitsOf v 14 11
  bitOf v 15 && e.1 != self && (decide (h < 1 ∨ 8 < h ∨ 23 < bitsOf v 4 0) || (bitOf v 10 && decide (23 < bitsOf v 9 5)))

/-- The size of a set record (R425). -/
def setSize (bs : List Byte) : Nat :=
  let n := fieldAt bs 2 2
  (4 + 2 * n + fieldAt bs 1 1 * (2 + 2 * n) + 3) / 4 * 4

/-- A set record (R425), not yet checked under R332. -/
def setRecord (bs : List Byte) : CollSet :=
  let n := fieldAt bs 2 2
  let ids (b : List Byte) : List (BitVec 12) := (upto n).map (fun i => chipAt b (2 * i))
  { id := fieldAt bs 0 1, members := ids (bs.drop 4), refused := false
    rings := (upto (fieldAt bs 1 1)).map (fun r =>
      let b := bs.drop (4 + 2 * n + r * (2 + 2 * n))
      { cw := fieldAt b 0 1, ccw := fieldAt b 1 1, order := ids (b.drop 2) }) }

/-- Whether a list of chip ids ascends. -/
def ascending : List (BitVec 12) → Bool
  | a :: b :: t => decide (a.toNat < b.toNat) && ascending (b :: t)
  | _ => true

/-- Whether a ring names a port whose entry does not name its neighbour (R332). -/
def ringBad (ports : List PortEntry) (self : BitVec 12) (r : Ring) : Bool :=
  let n := r.order.length
  let i := r.order.idxOf self
  let at_ (k : Nat) : BitVec 12 := unitAt 0 r.order (k % max 1 n)
  let names (p : Nat) (c : BitVec 12) : Bool := decide (p < 24) && (unitAt .off ports p).peerChip == BitVec.ofNat 16 c.toNat
  decide (n ≤ i) || !names r.cw (at_ (i + 1)) || !names r.ccw (at_ (i + n - 1))

/-- Whether a set is refused (R331, R332). -/
def setBad (ports : List PortEntry) (self : BitVec 12) (e : CollSet) : Bool :=
  decide (e.rings.length < 1 ∨ 4 < e.rings.length ∨ e.members.length < 2 ∨ 4096 < e.members.length)
  || e.rings.any (ringBad ports self)
  || (e.rings.flatMap (fun r => [r.cw, r.ccw].eraseDups)).eraseDups.length != (e.rings.flatMap (fun r => [r.cw, r.ccw].eraseDups)).length
  || !ascending e.members || !e.members.contains self

/-- The set records of a section (R425): none where one does not fit or a SET_ID comes twice. -/
def setRecords (ports : List PortEntry) (self : BitVec 12) : Nat → List Byte → Option (List CollSet)
  | 0, _ => some []
  | k + 1, bs =>
    if bs.length < 4 ∨ bs.length < setSize bs then none
    else match setRecords ports self k (bs.drop (setSize bs)) with
      | none => none
      | some l =>
        let e := setRecord bs
        if l.any (fun x => x.id == e.id) then none else some ({ e with refused := setBad ports self e } :: l)

/-- CONFIG_SET entries (R423, R426): window offset and value. -/
def configEntries (bs : List Byte) : List (Nat × Nat) :=
  (upto (bs.length / 8)).map (fun i => (fieldAt bs (8 * i) 4 % 2 ^ 26, fieldAt bs (8 * i + 4) 4))

/-- Whether a CONFIG_SET entry is refused (R426). -/
def configBad (e : Nat × Nat) : Bool :=
  let off := e.1
  let base := blockBase off
  let ours := [0x1_0000, blkPwr, 0x3_0000, blkSun, blkPerf, 0x9_0000].contains base
    || decide (0x100_0000 ≤ off ∧ off < 0x180_0000) || isHbmBlk base || (isLinkBlk base && off != base)
  match regInfo off with
  | some i => !ours || (e.2 ||| i.rw ||| i.sh) != (i.rw ||| i.sh)
  | none => true

/-- Apply one CONFIG_SET entry to both sets (R426). SWAP requests nothing. -/
def State.configPut (s : State) (e : Nat × Nat) : State :=
  let off := e.1
  let r := off - blockBase off
  match shField off with
  | some (m, _) =>
    let v := BitVec.ofNat 32 (e.2 &&& m)
    s.modRegs (fun g => { g with active := cfgPut g.active off v, shadow := cfgPut g.shadow off v })
  | none =>
    if off = 0x1_0000 then s
    else if hasWide (blockBase off) && wideReg r then s.wideWrite .firmware (blockBase off) r e.2
    else if 0x8_0100 ≤ off ∧ off ≤ 0x8_0108 then s.perfWrite off e.2
    else s.putPlain off e.2

/-! ### Stage 1 (R415 steps 5 and 6, R420 to R429, R519 to R528) -/

/-- The codes of a start that stops (the *Stage 1 failures* table, TOP_START_STAT). -/
def failMagic : Nat := 1
def failVersion : Nat := 2
def failSignature : Nat := 3
def failSection : Nat := 4
def failFirmware : Nat := 5
def failConfig : Nat := 6
def failTrain : Nat := 7
def failRetire : Nat := 8
def failGroup : Nat := 9

/-- The tables that Stage 1 takes from the sections. -/
structure Tables where
  ports  : List PortEntry
  routes : List (Nat × W16)
  sets   : List CollSet
  chip   : Option Nat
  group  : Option GroupCfg
  wake   : List Byte
  config : List (Nat × Nat)

/-- Read and check the tables: the code and detail of the failure that stops the start, or the tables. -/
def State.readTables (s : State) (l : List Section) : (Nat × Nat) ⊕ Tables :=
  let sec := s.sectionOf l
  let ports := match sec tyPorts with
    | some b => portTable b
    | none => List.replicate 24 .off
  let chip := (sec tyGroup).map (fun b => fieldAt b 0 2)
  let self := chip.getD 0xFFFF % 0x1000
  let group := match sec tyGroup with
    | some b => groupCfg (BitVec.ofNat 12 self) (b.drop 4)
    | none => none
  let routes := match sec tyRoutes with
    | some b => routingTable b
    | none => []
  let config := match sec tyConfig with
    | some b => configEntries b
    | none => []
  if routes.any (routeBad (if chip.isSome then self else 0xFFFF)) then .inl (failSection, tyRoutes)
  else match (match sec tySets with
      | some b => setRecords ports (BitVec.ofNat 12 self) (fieldAt b 0 2) (b.drop 4)
      | none => some []) with
    | none => .inl (failSection, tySets)
    | some sets =>
      if 16384 < config.length then .inl (failSection, tyConfig)
      else match config.findIdx? configBad with
        | some i => .inl (failConfig, i % 256)
        | none => .inr { ports := ports, routes := routes, sets := sets, chip := chip, group := group
                         wake := (sec tyWake).getD [0, 0, 0, 0], config := config }

/-- PWR_WAKE_CFG from the WAKE section: the pins' fields, the other sources as at reset. -/
def wakeOf (b : List Byte) : W32 :=
  BitVec.ofNat 32 (0x3_0000 + (upto 4).foldl (fun v i => v + fieldVal (fieldAt b i 1 % 8) (4 * i)) 0)

/-- What the tables set. -/
def State.putTables (s : State) (t : Tables) : State :=
  let s : State := { s with
    ports := t.ports
    routes := t.routes
    sets := t.sets
    start := { s.start with chipId := BitVec.ofNat 16 (t.chip.getD 0xFFFF) }
    pwr := { s.pwr with wakeCfg := wakeOf t.wake }
    group := { s.group with
      cfg := t.group
      self := BitVec.ofNat 12 (t.chip.getD 0)
      state := if t.chip.isSome ∧ t.group.isNone then .badConfig else .alone }
    regs := { s.regs with active := [], shadow := [] } }
  let s := t.config.foldl (fun (u : State) e => u.configPut e) s
  let s := s.modRegs (fun r => { r with dirty := false, gen := 1 })
  (s.sets.filter (fun e => e.refused)).foldl (fun (u : State) e => u.mailReport mrSet e.id) s

/-- The measurement entries of a start, in the order of the *Measurement kinds* table; `late`: what reading the device record
measured, which follows them. -/
def State.measureStart (s : State) (seed : List Byte) (l : List Section) (late : List MeasEntry) : State :=
  let slot := s.start.runSlot
  let h := s.flashRead (flashSlot slot) 5645
  let s := s.measure 0x02 slot (Config.shake256 h) (slotSec h + fieldVal (fieldAt h 4 1) 32 + fieldVal (fieldAt h 5 1) 40)
  let s := (upto 4).foldl (fun (t : State) i =>
    let (_, len, d) := slotImage h i
    t.measure 0x03 i (blockOf d) len) s
  let s := s.measure 0x04 0 (Config.shake256 seed) (fieldAt seed 8 4 + fieldVal (fieldAt seed 4 1) 32 + fieldVal (fieldAt seed 5 1) 40)
  let s := l.foldl (fun (t : State) e => t.measure 0x05 e.ty e.digest e.len) s
  let s := (late.filter (fun e => e.kind != 0x0A)).foldl (fun (t : State) e => t.measure e.kind e.arg e.digest e.detail.toNat) s
  (late.filter (fun e => e.kind == 0x0A)).foldl (fun (t : State) e => t.measure e.kind e.arg e.digest e.detail.toNat) s

/-- A start that finds TRIAL set clears it and reports a rolled-back graft (R492). -/
def State.clearTrial (s : State) : State :=
  if !s.flash.trial then s
  else
    let s := ({ s with flash := { s.flash with trial := false } }).writeDrec
    let s : State := { s with fw := { s.fw with phase := 6 } }
    (s.measure 0x09 s.flash.bootSlot 0 0x8003).msix 67

/-- Stage 1 itself: the slot runs on every processor, the configuration applies. -/
def State.stage1 (s : State) (seed : List Byte) (l : List Section) (t : Tables) (late : List MeasEntry) : State :=
  let trial := s.flash.trial
  let h := s.flashRead (flashSlot s.start.runSlot) 5645
  let s := s.measureStart seed l late
  let s := s.rpmcTo 1 (fieldAt seed 8 4)
  let s := if s.start.runSlot = s.flash.bootSlot ∧ !trial then s.rpmcTo 2 (slotSec h) else s
  let s := s.clearTrial
  let c := s.certs
  let (ok, s) := s.chainOk (c.take certLen) ((c.drop certLen).take certLen) Config.pufKey s.sec.serial
  let s := s.putTables t
  let s : State := { s with
    sec := { s.sec with certInv := !ok }
    fw := { s.fw with ifMajor := fieldAt h 4 1, ifMinor := fieldAt h 5 1 }
    cores := s.cores.mapIdx (fun i (k : Core) => { k with retired := s.retired.contains i, inService := !s.retired.contains i })
    start := { s.start with stage := 1 } }
  let s := (upto 11).foldl (fun (u : State) i => u.runProc i u.start.runSlot) s
  s.logEntry srcDmp 1 0x0001 [1, s.startStat]

/-- The slot to start (R427): the one BOOT_SLOT names, else the other; none where neither passes. -/
def State.pickSlot (s : State) : Option Nat × State :=
  let b := s.flash.bootSlot
  let (a, s) := s.slotOk b
  if a then (some b, s)
  else
    let (a, s) := s.slotOk (1 - b)
    if a then (some (1 - b), { s with start := { s.start with fallback := true } }) else (none, s)

/-- The work toward Stage 1, or the failure that stops it at Stage 0 (R424). -/
def State.towardStage1 (s : State) : State :=
  let s := s.measure 0x01 0 Config.romDigest 0
  if !Config.pufGood then
    ({ s with sec := { s.sec with pufFail := true, rpmcFail := true } }).halt failSignature 0
  else
    let s : State := { s with sec := { s.sec with idReady := true, serial := serialOf Config.pufKey } }
    let h := s.flashRead 0 6637
    let key := (h.drop 1376).take 1952
    if h.take 4 ≠ [0x53, 0x45, 0x45, 0x44] then s.halt failMagic 0
    else if fieldAt h 4 1 ≠ 1 then s.halt failVersion (fieldAt h 4 1)
    else
      let (ok, s) := s.verify key (h.take 3328) ((h.drop 3328).take 3309)
      let (c1, s) := s.rpmcRead 1
      let s : State := { s with sec := { s.sec with ownerDig := blockOf ((h.drop 16).take 64) } }
      if !ok ∨ bytesOf 64 (Config.shake256 key).toNat ≠ (h.drop 16).take 64 then s.halt failSignature 0
      else if fieldAt h 8 4 < c1.getD 0 then ({ s with sec := { s.sec with rollback := true } }).halt failSignature 0
      else
        let before := s.sec
        let (_, s) := s.rpmcRead 0
        let s := s.loadDrec
        let late := s.sec.mlog.drop before.mlog.length
        let s : State := { s with sec := { s.sec with mlog := before.mlog, mdig := before.mdig, lost := before.lost } }
        let (_, s) := s.rpmcRead 2
        match s.pickSlot with
        | (none, s) => s.halt failFirmware 0
        | (some slot, s) =>
          let s : State := { s with start := { s.start with runSlot := slot } }
          let l := seedSections h
          match l.find? (s.sectionBad l) with
          | some e => s.halt failSection (e.ty % 256)
          | none => match s.readTables l with
            | .inl (code, d) => s.halt code d
            | .inr t => s.stage1 h l t late

/-- Whether the start may go past Stage 0: power is on and nothing holds it (R413, R424, R443, R450, R460, R507, R590). -/
def State.mayStart (s : State) : Bool :=
  s.start.good && s.start.seqPos == 8 && s.start.stage == 0 && !s.start.halted && !s.therm.tripPin && !s.start.extest && !s.sun.parked
  && s.pwr.state != .rest && s.powered .fabric && s.pwr.railsOn.contains .runA && s.pwr.railsOn.contains .runH

/-- Seed image and firmware are verified, or the start halts at Stage 0. -/
def execStage1Reached (s : State) : Done := .next (if s.mayStart then s.pwrDo State.towardStage1 else s)

/-! ### Stages 2 and 3 (R30, R388, R430 to R434) -/

/-- Whether the cores out of service exceed a limit of R30, or the record carries RETIRE_OVERFLOW. -/
def State.overLimits (s : State) : Bool :=
  s.overflow || retireExceeds ((upto 128).filter (fun k => (s.core k).retired))

/-- Every stack is trained, cleared where the device has not kept it (R431, R432). -/
def State.hbmReady (s : State) : State :=
  let s := if s.start.trainedOnce then s else s.setMem { cells := s.mem.cells.filter (fun c => decide (hbmEnd ≤ c.1))
                                                         poison := s.mem.poison.filter (fun g => decide (hbmEnd ≤ 32 * g)) }
  { s with hbms := s.hbms.map (fun (h : Hbm) => { h with trained := true, trainFail := false, selfRefresh := decide (6 ≤ s.pwr.shed) }) }

/-- Links start from the port table (R321, R434). -/
def State.startLinks (s : State) : State :=
  let bit (b : Bool) : Triple := .of (if b then 1 else 0)
  let s : State := { s with votes := { s.votes with
    linkEnable := s.ports.map (fun p => bit p.enable)
    linkAllowX2 := s.ports.map (fun p => bit p.allowX2) } }
  (upto 24).foldl (fun (t : State) n => if (t.port n).enable then t.linkDetect n else t) s

/-- Stage 2. -/
def State.stage2 (s : State) (fails : List (Fin 128)) : State :=
  let s := fails.foldl (fun (t : State) (k : Fin 128) => t.retireCore k) s
  let s := s.hbmReady
  let s : State := { s with
    start := { s.start with stage := 2, trainedOnce := true }
    fw := { s.fw with
      dumps := match s.fw.aonDump with
        | some d => (d :: s.fw.dumps).take 16
        | none => s.fw.dumps
      aonDump := none }
    pwr := { s.pwr with state := if s.pwr.state = .leaveRest then .active else s.pwr.state } }
  let tooMany := s.overLimits
  let bad := s.group.state == .badConfig
  let s : State := if tooMany then { s with start := { s.start with failCode := BitVec.ofNat 8 failRetire } }
    else if bad then { s with start := { s.start with failCode := BitVec.ofNat 8 failGroup } } else s
  let s := s.logEntry srcDmp 1 0x0001 [2, s.startStat]
  let s := s.startLinks
  if tooMany then s.keptOut else s.groupBegin

/-- HBM training, initialisation and self-tests have finished: Stage 2, or a halt at Stage 1 when a stack has failed its fourth
attempt. `trainFailures`: failed attempts by stack. -/
def execStage2Reached (trainFailures : List (Fin 8 × Nat)) (selftestFails : List (Fin 128)) (s : State) : Done :=
  .next (if s.start.stage ≠ 1 ∨ s.start.halted ∨ !s.start.good ∨ s.therm.tripPin ∨ !s.powered .fabric then s
    else
      let bad := if s.start.trainedOnce then [] else ((upto 8).filter (fun n => trainFailures.any (fun e => e.1.val == n && decide (4 ≤ e.2))))
      match bad with
      | n :: _ =>
        let s := (upto 8).foldl (fun (t : State) k =>
          t.modHbm k (fun h => { h with trained := !bad.contains k, trainFail := bad.contains k })) s
        s.halt failTrain n
      | [] => s.pwrDo (fun t => t.stage2 selftestFails))

/-- Whether a link has settled (R434). -/
def LinkState.settled : LinkState → Bool
  | .up => true
  | .keepalive => true
  | .retrain => true
  | .down => true
  | .refused => true
  | _ => false

/-- A device without a group configuration reaches Stage 3 (R433, R434). -/
def execStage3Alone (s : State) : Done :=
  .next (if s.start.stage = 2 ∧ s.start.failCode = 0 ∧ s.group.cfg.isNone = true
      ∧ ((upto 24).all (fun n => !s.linkOn n || (s.link n).state.settled) = true ∨ 8000000000 ≤ s.nowN) then
      let s : State := { s with start := { s.start with stage := 3 } }
      s.logEntry srcDmp 1 0x0001 [3, s.startStat]
    else s)

/-! ### Reference clocks (R584) -/

/-- RUNREF_i stops for more than 10 us: its links go DOWN with cause LOS. -/
def execRunrefLost (i : Fin 2) (s : State) : Done :=
  .next ((upto 12).foldl (fun (t : State) k =>
    let n := 12 * i.val + k
    if (t.link n).state.live then t.linkDown n .down dcLos else t) ({ s with runref := s.runref.set i.val false }))

/-- RUNREF_i returns. -/
def execRunrefReturn (i : Fin 2) (s : State) : Done := .next { s with runref := s.runref.set i.val true }

/-- HBMREF stops for more than 10 us: uncorrected-fatal. -/
def execHbmrefLost (s : State) : Done := .next (if s.start.good then s.pwrDo (fun t => t.takeFatal fcHbmRef) else s)

/-! ### The test access port (R589, R590) -/

/-- Whether a boundary-scan instruction takes effect. -/
def State.mayScan (s : State) : Bool := s.start.stage == 0

/-- EXTEST, EXTEST_PULSE and EXTEST_TRAIN: in effect before Stage 1 (so also at a halt there), else BYPASS. -/
def State.scan (s : State) : State :=
  if s.mayScan then ({ s with start := { s.start with extest := true, bypass := false } }).emit .jtagScan
  else ({ s with start := { s.start with bypass := true } }).emit .jtagBypass

def execExtest (s : State) : Done := .next s.scan
/-- As EXTEST, for the AC-coupled lanes. -/
def execExtestPulse (s : State) : Done := .next s.scan
/-- As EXTEST, for the AC-coupled lanes. -/
def execExtestTrain (s : State) : Done := .next s.scan

/-- IDCODE (R589): stepping digit, part code, the manufacturer's code, which the manual does not give (log entry 6), and 1. -/
def idcodeWord : W32 := BitVec.ofNat 32 (fieldVal 1 28 + fieldVal 0x4C08 12 + fieldVal (Config.jedecId % 2048) 1 + 1)

def execIdcode (s : State) : Done := .next (({ s with start := { s.start with bypass := false } }).emit (.jtag idcodeWord))

/-- Test-Logic-Reset lets a held start go on; a halted start stays halted. -/
def execTestLogicReset (s : State) : Done := .next { s with start := { s.start with extest := false, bypass := false } }

end Sys2Proof.Machine
end

