-- ==== Sys2Proof/Machine/Attest.lean ====
section
/-! DEFINITION. Peer authentication (R531 to R533) and the reception of GROUP and ATTEST messages: delivered, forwarded, or held
until the link they came in on is authenticated. -/

namespace Sys2Proof.Machine

open Sys2Proof

/-! ### GROUP messages that arrive -/

/-- This device learns of ADMIT and REFUSE that it passes to a neighbour, and that the sender of a HEARTBEAT is admitted (R392; log
entry 72). -/
def State.sawGroup (s : State) (m : Msg) : State :=
  if m.op ≠ opGroup then s
  else if Msg.gtype m = gtAdmit then State.pumpOpened s (s.peerAdmitted m.dst)
  else if Msg.gtype m = gtHeartbeat then State.pumpOpened s (s.peerAdmitted m.src)
  else if Msg.gtype m = gtRefuse then s.peerRefused m.dst
  else s

/-- A GROUP message goes on. -/
def State.passGroup (s : State) (n : Nat) (m : Msg) : State := (s.forward n m).sawGroup m

/-- A GROUP message received on a link at `at_` is delivered or forwarded once the link is authenticated (R533); until then it waits. -/
def State.groupIn (s : State) (n at_ : Nat) (m : Msg) : State :=
  if !(s.link n).authOk then s.modLink n (fun l => { l with groupHeld := l.groupHeld ++ [(at_, m)] })
  else if m.dst = s.group.self then s.takeGroup at_ (some n) m
  else s.passGroup n m

/-- What waited for the authentication of a link goes on, in order. -/
def State.openGroup (s : State) (n : Nat) : State :=
  let q := (s.link n).groupHeld
  q.foldl (fun (t : State) e => t.groupIn n e.1 e.2) (s.modLink n (fun l => { l with groupHeld := [] }))

/-! ### Verdicts (R533) -/

/-- Send the verdict on a port's peer to the manager, once a route to it is UP. -/
def State.sendVerdict (s : State) (n : Nat) : State :=
  match (s.link n).verdict, s.group.cfg with
  | some res, some _ =>
    let mgr := s.group.manager
    let m := s.attestMsg mgr atVerdict (verdictData (s.link n).peerChip (s.link n).peerSer res)
    let s := s.modLink n (fun l => { l with verdictT := s.nowN })
    if mgr = s.group.self then (s.modGroup (fun g => { g with selfQ := g.selfQ ++ [(s.nowN, none, m)] })).drain
    else if (s.route mgr).isSome then s.sendMsg m else s
  | _, _ => s

/-- Every 100 ms the verdict is repeated until the peer is admitted or refused (R533). -/
def execVerdictRepeat (n : Fin 24) (s : State) : Done :=
  .next (let l := s.link n
    if l.verdict.isSome && !l.admitted && decide (l.verdictT + 100000000 ≤ s.nowN) then s.sendVerdict n else s)

/-! ### Responses (R532) -/

/-- A RESPONSE that arrived at a time is checked: the link is authenticated or not, and the manager is told. -/
def State.inResponse (s : State) (n : Nat) (at_ : Nat) (m : Msg) : State :=
  match (s.link n).nonce with
  | none => s
  | some v =>
    let (k, s) := s.checkResponse m.data (s.link n).peerSer v (s.link n).nonceAt at_
    let res : Byte × Byte := if k = 0 then (1, 0) else (2, BitVec.ofNat 8 k)
    let s := s.modLink n (fun l => { l with nonce := none, authOk := k == 0, verdict := some res })
    if k = 0 then (s.sendVerdict n).openGroup n else (s.count blkSec 0x05 1).sendVerdict n

/-- Serve one ATTEST message for this device at its SECP. -/
def State.serveAttest (s : State) (n : Nat) (at_ : Nat) (m : Msg) : State :=
  let t := m.opword.toNat % 256
  if t = atChallenge then s.inChallenge n m
  else if t = atResponse then s.inResponse n at_ m
  else s

/-- An ATTEST message arrives: forwarded; a VERDICT to the manager's DMP; the others to the SECP, where they wait while it is down
(R484). -/
def State.attestIn (s : State) (n : Nat) (m : Msg) : State :=
  if m.opword.toNat % 256 = atVerdict then
    (if m.dst = s.group.self then s.takeGroup s.nowN (some n) m else s.forward n m)
  else if (s.proc 0).runs then s.serveAttest n s.nowN m
  else { s with fw := { s.fw with attQ := s.fw.attQ ++ [(n, s.nowN, m)] } }

/-- The SECP runs again: it serves what waited, in order, and challenges the peers of links that came UP meanwhile (R484, R531). -/
def State.secpBack (s : State) : State :=
  let q := s.fw.attQ
  let s := q.foldl (fun (t : State) (e : Nat × Nat × Msg) => t.serveAttest e.1 e.2.1 e.2.2) ({ s with fw := { s.fw with attQ := [] } })
  (upto 24).foldl (fun (t : State) n =>
    let l := t.link n
    if l.state == .up && !l.authOk && l.nonce.isNone && l.verdict.isNone then t.challenge n else t) s

end Sys2Proof.Machine
end

