-- ==== Sys2Proof/Machine/Graft.lean ====
section
/-! DEFINITION. The graft (R489 to R492): its phases, the handover of the processors, deferral, rollback and trial. The mailbox
requests that begin it are in Mailbox. -/

namespace Sys2Proof.Machine

open Sys2Proof

def phIdle : Nat := 0
def phWriting : Nat := 1
def phStaged : Nat := 2
def phDeferred : Nat := 3
def phRunning : Nat := 4
def phTrial : Nat := 5
def phRolledBack : Nat := 6

/-- Causes of trace point 0x8003. -/
def gcVerify : Nat := 1
def gcReady : Nat := 2
def gcCrash : Nat := 3
def gcRecord : Nat := 4

def State.modFw (s : State) (f : FwState → FwState) : State := { s with fw := f s.fw }

/-- A change of the graft phase raises vector 67 (R470). -/
def State.graftPhase (s : State) (p : Nat) : State :=
  if s.fw.phase = p then s else (s.modFw (fun f => { f with phase := p })).msix 67

/-- FLASH_LOCK around a flash write. -/
def State.lockFlash (s : State) (v : W16) : State := { s with votes := { s.votes with flashLock := .of v } }

/-- The order of handover (R490): CSP_0 to CSP_7, DMP, SECP, PMP, as numbers in the list of processors. -/
def handOrder : List Nat := [3, 4, 5, 6, 7, 8, 9, 10, 2, 0, 1]

/-- A processor's number as PWR_REFUSE.INDEX encodes it. -/
def numCode (i : Nat) : Nat := if i < 3 then i else i + 5

/-- The slot that a graft brings in. -/
def State.newSlot (s : State) : Nat := 1 - s.fw.oldSlot

/-- Whether an emergency holds handovers back: it is in force, or has cleared less than 1 s before (R491). -/
def State.emergencyHolds (s : State) : Bool :=
  s.emergency || (match s.pwr.emergT with
    | some t => decide (s.nowN < t + 1000000000)
    | none => false)

/-- The reason that a graft is deferred, if it is (R491). -/
def State.graftDefers (s : State) : Option Nat :=
  if s.emergencyHolds then some reEmergency
  else if s.frost.phase ≠ .running then some reFrost
  else if s.pwr.state ≠ .active then some reEmergency
  else none

/-- The graft proceeds: the origin of the *Graft sequence* table. -/
def State.graftGo (s : State) : State :=
  (s.modFw (fun f => { f with verified := false, nextProc := 0, readyBy := none, stepT := s.nowN, oldSlot := s.start.runSlot })).graftPhase phRunning

/-- The next processor's handover begins, unless an emergency holds it back; a CSP pauses issue on its cluster. -/
def State.handNext (s : State) : State :=
  match handOrder[s.fw.nextProc]? with
  | none => s
  | some i =>
    if s.emergencyHolds then s.modFw (fun f => { f with readyBy := none })
    else
      let s := s.modFw (fun f => { f with readyBy := some (s.nowN + 500000000) })
      if 3 ≤ i then s.modCluster (i - 3) (fun k => { k with issueHeld := true }) else s

/-- A processor runs a slot's image; a CSP's issue goes on, unless a replay of its cluster holds it. -/
def State.toSlot (s : State) (i slot : Nat) : State :=
  let s := s.modProc i (fun p => { p with slot := slot })
  if 3 ≤ i then s.modCluster (i - 3) (fun k => { k with issueHeld := s.replaying (i - 3) }) else s

/-- The interface minor of a slot. -/
def State.slotMinor (s : State) (slot : Nat) : Nat := fieldAt (s.flashRead (flashSlot slot) 6) 5 1

/-- The graft rolls back (R492): the processors handed over hand back in the same order, the record clears TRIAL. -/
def State.graftBack (s : State) (cause i : Nat) : State :=
  let old := s.fw.oldSlot
  let s := (handOrder.take (s.fw.nextProc + 1)).foldl (fun (t : State) k => t.toSlot k old) s
  let s : State := if s.flash.trial then ({ s with flash := { s.flash with trial := false } }).writeDrec else s
  let s : State := { s with
    start := { s.start with runSlot := old }
    fw := { s.fw with readyBy := none, verified := false, ifMinor := s.slotMinor old } }
  ((s.measure 0x09 old 0 0x8003).logEntry srcSecp sevError 0x8003 [cause, numCode i, old, 0]).graftPhase phRolledBack

/-! ### Events -/

/-- The staged image is in the flash (R489). -/
def execGraftWriteDone (s : State) : Done :=
  .next (if s.fw.phase = phWriting ∧ (s.proc 0).runs = true then
      let s := s.flashWrite (flashSlot (1 - s.start.runSlot)) (s.mem.read s.fw.stagedAt s.fw.stagedLen)
      (s.lockFlash 1).graftPhase phStaged
    else s)

/-- The SECP has read and verified the staged slot again (R490 steps 1 and 2): the record gets TRIAL, the first handover begins. -/
def execGraftVerifyDone (s : State) : Done :=
  .next (if s.fw.phase ≠ phRunning ∨ s.fw.verified = true ∨ !(s.proc 0).runs then s
    else
      let slot := s.newSlot
      let h := s.flashRead (flashSlot slot) 5645
      let s := s.measure 0x08 slot (Config.shake256 h) (slotSec h)
      let (ok, s) := s.slotOk slot
      if !ok then s.graftBack gcVerify 0
      else if !Config.pufGood then s.graftBack gcRecord 0
      else
        let s := ({ s with flash := { s.flash with trial := true } }).writeDrec
        (s.modFw (fun f => { f with verified := true })).handNext)

/-- A processor reports ready from the new image (R490); after the last, TRIAL. -/
def execGraftHandover (s : State) : Done :=
  .next (match s.fw.readyBy, handOrder[s.fw.nextProc]? with
    | some _, some i =>
      if s.fw.phase ≠ phRunning then s
      else
        let s := (s.toSlot i s.newSlot).modFw (fun f => { f with nextProc := f.nextProc + 1, readyBy := none })
        if s.fw.nextProc < 11 then s.handNext
        else
          let s : State := { s with
            start := { s.start with runSlot := s.newSlot }
            fw := { s.fw with stepT := s.nowN, ifMinor := s.slotMinor s.newSlot } }
          s.graftPhase phTrial
    | _, _ => s)

/-- The next handover, held back by an emergency, begins 1 s after it has cleared (R491). -/
def execGraftHandoverResume (s : State) : Done :=
  .next (if s.fw.phase = phRunning ∧ s.fw.verified = true ∧ s.fw.readyBy.isNone = true then s.handNext else s)

/-- A processor has not reported ready within 500 ms of its handover (R492). -/
def execGraftReadyTimeout (s : State) : Done :=
  .next (match s.fw.readyBy with
    | some t => if s.fw.phase = phRunning ∧ t ≤ s.nowN then s.graftBack gcReady (handOrder[s.fw.nextProc]?.getD 0) else s
    | none => s)

/-- The trial's 60 s are over (R490 step 7): BOOT_SLOT names the new slot, the counter advances. -/
def execGraftTrialEnd (s : State) : Done :=
  .next (if s.fw.phase = phTrial ∧ s.fw.stepT + 60000000000 ≤ s.nowN ∧ (s.proc 0).runs = true then
      let slot := s.start.runSlot
      let s := ({ s with flash := { s.flash with bootSlot := slot, trial := false } }).writeDrec
      (s.rpmcTo 2 (slotSec (s.flashRead (flashSlot slot) 5645))).graftPhase phIdle
    else s)

/-- A deferred graft proceeds by itself (R491). -/
def execGraftDeferEnd (s : State) : Done :=
  .next (if s.fw.phase = phDeferred ∧ s.graftDefers.isNone = true then s.graftGo else s)

end Sys2Proof.Machine
end

