-- ==== Sys2Proof/Machine/Mailbox.lean ====
section
/-! DEFINITION. The management mailbox (R420, R471 to R480, R489, R490, R530): what its requests do and answer. A request row is the
moment at which GO starts that request; MBX_GO reads the request buffer. Payload fields whose bytes the manual does not place
stand in the order it names them, little-endian, packed (log entry 23). -/

namespace Sys2Proof.Machine

open Sys2Proof

def rqStatus : Nat := 0x01
def rqLog : Nat := 0x02
def rqRecover : Nat := 0x03
def rqHello : Nat := 0x10
def rqPriv : Nat := 0x11
def rqCreate : Nat := 0x20
def rqDestroy : Nat := 0x21
def rqAbort : Nat := 0x22
def rqRegion : Nat := 0x23
def rqJob : Nat := 0x30
def rqStage : Nat := 0x40
def rqActivate : Nat := 0x41
def rqGraft : Nat := 0x42
def rqDump : Nat := 0x50
def rqAttest : Nat := 0x60

/-- What a request does: its code and SEQ, whether it is allowed before Stage 1, whether it needs a session, its effect once
the L8 takes it (R472, R473). While the DMP is down a request is held (R484); at shed stage 7 the mailbox is as before Stage 1
(R453). A request is a PCIe wake (R451). -/
def State.request (s : State) (code : Nat) (seq : W32) (early sess : Bool) (f : State → State) : State :=
  if s.mbx.busy then { s with mbx := { s.mbx with ignored := true } }
  else
    let s := s.wake .pcie
    if !early ∧ (s.start.stage < 1 ∨ 7 ≤ s.pwr.shed) then s.respond code seq stNotPermitted reNotReady []
    else if sess ∧ !s.mbx.opened then s.respond code seq stNotPermitted reNoSession []
    else if 1 ≤ s.start.stage ∧ s.pwr.shed < 7 ∧ !(s.proc 2).runs then { s with mbx := { s.mbx with busy := true, held := some (code, seq) } }
    else f s

/-- A request that the SECP serves waits while it is down (R484): it is kept as the command it came as. -/
def State.bySec (s : State) (code : Nat) (seq : W32) (i : Instr) (f : State → State) : State :=
  if (s.proc 0).runs then f s
  else { s with mbx := { s.mbx with busy := true, held := some (code, seq), waitSec := some i } }

def State.ok (s : State) (code : Nat) (seq : W32) (payload : List Byte) : State := s.respond code seq stOk 0 payload
def State.deny (s : State) (code : Nat) (seq : W32) (reason : Nat) : State := s.respond code seq stNotPermitted reason []

/-! ### Status, log, recovery -/

def State.doStatus (s : State) (seq : W32) : State :=
  s.request rqStatus seq true false (fun t =>
    t.ok rqStatus seq (bytesOf 4 t.startStat ++ bytesOf 4 t.groupStat ++ bytesOf 4 t.pwrStat ++ [BitVec.ofNat 8 t.fw.ifMajor, BitVec.ofNat 8 t.fw.ifMinor]
      ++ [BitVec.ofNat 8 t.start.runSlot] ++ (upto 8).map (fun n => BitVec.ofNat 8 (t.coresIn n)) ++ [BitVec.ofNat 8 t.fw.phase]))

/-- The 32 bytes of a log entry (R481). -/
def LogEntry.bytes (e : LogEntry) : List Byte :=
  bytesOf 8 e.time.toNat ++ bytesOf 4 e.seq.toNat ++ [e.source, e.severity] ++ bytesOf 2 e.trace.toNat
  ++ padTo 16 (e.args.flatMap (fun a => bytesOf 4 a.toNat))

/-- LOG_READ (R473, R481): entries from an index on, oldest first; those the ring has lost are passed over. -/
def State.doLog (s : State) (seq index : W32) : State :=
  s.request rqLog seq true false (fun t =>
    let back := min (t.log.head - index).toNat t.log.ring.length
    t.ok rqLog seq ((((t.log.ring.take back).reverse).take 127).flatMap LogEntry.bytes))

/-- RECOVER_WRITE (R424, R473): only while HALTED. -/
def State.doRecover (s : State) (seq off : W32) (data : List Byte) : State :=
  s.request rqRecover seq true false (fun t =>
    if !t.start.halted then t.deny rqRecover seq reNotHalted
    else if 4064 < data.length then t.respond rqRecover seq stBadShape 0 []
    else t.bySec rqRecover seq (.recoverWrite seq off data) (fun u => (u.flashWrite off.toNat data).ok rqRecover seq []))

/-! ### Sessions (R469, R474, R475) -/

def State.doHello (s : State) (seq : W32) (major minor : Byte) : State :=
  s.request rqHello seq false false (fun t =>
    let mine := t.fw.ifMinor
    let same := major.toNat == t.fw.ifMajor
    let version := [BitVec.ofNat 8 t.fw.ifMajor, BitVec.ofNat 8 mine]
    if same ∧ minor.toNat ≤ mine then
      let n := t.mbx.session + 1
      let t : State := { t with mbx := { t.mbx with session := n, opened := true, priv := false } }
      t.ok rqHello seq (version ++ bytesOf 4 n)
    else
      let why := if same then reMinor else reMajor
      (t.logEntry srcDmp sevWarn 0x2010 [fieldVal major.toNat 8 + minor.toNat, fieldVal t.fw.ifMajor 8 + mine, why, 0]).respond rqHello seq stVersionRefused why
        version)

def State.doPriv (s : State) (seq : W32) (on : Byte) : State :=
  s.request rqPriv seq false true (fun t =>
    if on = 0 ∨ on = 1 then ({ t with mbx := { t.mbx with priv := on == 1 } }).ok rqPriv seq []
    else t.respond rqPriv seq stBadShape 0 [])

/-! ### Contexts (R475 to R479) -/

def State.doCreate (s : State) (seq : W32) (r : Block) : State :=
  s.request rqCreate seq false true (fun t =>
    if t.start.stage < 2 then t.deny rqCreate seq reNotReady
    else match t.createCtx r with
      | .inl (c, b) => (t.putCtx c b r (.host t.mbx.session)).ok rqCreate seq ([BitVec.ofNat 8 c] ++ bytesOf 2 b)
      | .inr (st, why) => t.respond rqCreate seq st why [])

/-- Whether a context was created by a host session, any at all. -/
def State.hostCtx (s : State) (c : Nat) : Bool := match s.ctx c with
  | some x => match x.owner with
    | .host _ => true
    | .group => false
  | none => false

/-- Why a request that names a context may not have it: another's, or no context at all (log entry 9). -/
def State.whyNot (s : State) (c : Nat) : Nat := if (s.ctx c).isSome then reNotOwner else reNoContext

/-- Whether a context belongs to the session in force. -/
def State.ownCtx (s : State) (c : Nat) : Bool := match s.ctx c with
  | some x => x.owner == .host s.mbx.session
  | none => false

def State.doDestroy (s : State) (seq : W32) (c : Byte) : State :=
  s.request rqDestroy seq false true (fun t =>
    if t.hostCtx c.toNat then (t.destroyCtx c.toNat).ok rqDestroy seq [] else t.deny rqDestroy seq (t.whyNot c.toNat))

def State.doAbort (s : State) (seq : W32) (c : Byte) : State :=
  s.request rqAbort seq false true (fun t =>
    if t.hostCtx c.toNat then (t.abortCtx c.toNat).ok rqAbort seq [] else t.deny rqAbort seq (t.whyNot c.toNat))

/-- REGION_SET (R264, R266, R479): checked at once; applied once nothing of the context is in flight. -/
def State.doRegion (s : State) (seq : W32) (c index : Byte) (entry : BitVec 128) (timeout : W32) : State :=
  s.request rqRegion seq false true (fun t =>
    match t.ownCtx c.toNat, t.ctx c.toNat with
    | true, some x =>
      let r := regionOf entry
      if 63 < index.toNat ∨ !regionOk x r then t.respond rqRegion seq stBadShape 0 []
      else
        let p : RegionPending :=
          { index := index.toNat, region := r, seq := seq
            deadline := t.nowN + (if timeout = 0 then 100000000 else timeout.toNat) }
        ({ t with mbx := { t.mbx with busy := true } }).modCtx c.toNat (fun x => { x with pending := some p })
    | _, _ => t.deny rqRegion seq (t.whyNot c.toNat))

/-- The entry is applied, and issue resumes (R266). -/
def execRegionApply (c : Fin 64) (s : State) : Done :=
  .next (match s.ctx c with
    | some x => match x.pending with
      | some p => if s.regionReady c x && (s.proc 2).runs then (s.applyRegion c p).ok rqRegion p.seq [] else s
      | none => s
    | none => s)

/-- The entry cannot be applied in time: withdrawn (R479). -/
def execRegionSetTimeout (c : Fin 64) (s : State) : Done :=
  .next (match s.ctx c with
    | some x => match x.pending with
      | some p =>
        if p.deadline ≤ s.nowN ∧ (s.proc 2).runs = true then
          (s.modCtx c (fun x => { x with pending := none })).respond rqRegion p.seq stWaitTimeout 0 []
        else s
      | none => s
    | none => s)

/-! ### Jobs (R394, R480) -/

/-- Whether this device is the manager or the deputy of its group. -/
def State.leads (s : State) : Bool := match s.group.cfg with
  | some c => s.group.self == c.manager || s.group.self == c.deputy
  | none => false

def State.doJob (s : State) (seq : W32) (addr len : Nat) : State :=
  s.request rqJob seq false true (fun t =>
    if !t.leads then t.deny rqJob seq reNotOwner
    else if 0x400_0000 < len ∨ !inCtxRange addr len then t.respond rqJob seq stBadShape 0 []
    else
      let (l, t) := t.loadHome .fabric addr len
      if !l.bad.isEmpty then t.respond rqJob seq stPoison 0 []
      else match t.group.cfg.bind (fun c => jobOf c l.bytes) with
        | some j => (((t.modGroup (fun g => { g with job := some j })).startJob).drain).ok rqJob seq []
        | none => t.respond rqJob seq stBadShape 0 [])

/-! ### Graft requests (R489, R490) -/

/-- GRAFT_STAGE: the image's signature and digests, its SEC_VERSION, its IF_MAJOR, then the phase. -/
def State.doStage (s : State) (seq : W32) (addr : BitVec 48) (len : W32) : State :=
  s.request rqStage seq false true (fun t => t.bySec rqStage seq (.graftStage seq addr len) (fun t =>
    let a := addr.toNat
    let n := len.toNat
    if 0x100_0000 < n ∨ !inCtxRange a n then t.respond rqStage seq stBadShape 0 []
    else
      let (l, t) := t.loadHome .fabric a n
      let h := l.bytes.take 5645
      let (sig, t) := t.slotSigned h
      let good := sig && l.bad.isEmpty && imagesOk h (fun o k => (l.bytes.drop o).take k)
      let old := decide (slotSec h < unitAt 0 t.flash.rpmc 2) || !Config.pufGood
      let t : State := if good && old then { t with sec := { t.sec with rollback := true } } else t
      if !good ∨ old then t.respond rqStage seq stBadFormat reImage []
      else if fieldAt h 4 1 ≠ t.fw.ifMajor then t.respond rqStage seq stBadVersion reMajor []
      else if t.fw.phase ≠ phIdle ∧ t.fw.phase ≠ phStaged then t.deny rqStage seq reGraftBusy
      else (((t.modFw (fun f => { f with stagedAt := a, stagedLen := n })).lockFlash 0).ok rqStage seq []).graftPhase phWriting))

def State.doActivate (s : State) (seq : W32) : State :=
  s.request rqActivate seq false true (fun t =>
    if t.fw.phase ≠ phStaged then t.deny rqActivate seq reGraftBusy
    else match t.graftDefers with
      | some why => (t.respond rqActivate seq stGraftDeferred why []).graftPhase phDeferred
      | none => (t.ok rqActivate seq []).graftGo)

/-- The next processor to hand over, 0xFF when none is left. -/
def State.nextCode (s : State) : Nat := match handOrder[s.fw.nextProc]? with
  | some i => numCode i
  | none => 0xFF

def State.doGraft (s : State) (seq : W32) : State :=
  s.request rqGraft seq false false (fun t => t.ok rqGraft seq [BitVec.ofNat 8 t.fw.phase, BitVec.ofNat 8 t.nextCode])

/-! ### Dumps and quotes (R483, R530) -/

/-- The bytes of a crash dump (R483). -/
def Dump.bytes (d : Dump) : List Byte :=
  let rest := d.body.body ++ d.logs.flatMap LogEntry.bytes
  [0x44, 0x55, 0x4D, 0x50, BitVec.ofNat 8 (procCode d.proc), BitVec.ofNat 8 d.cause, BitVec.ofNat 8 d.slot, 0] ++ bytesOf 8 d.time.toNat
  ++ bytesOf 4 d.num ++ bytesOf 4 (64 + rest.length) ++ bytesOf 8 d.body.mcause.toNat ++ bytesOf 8 d.body.mepc.toNat
  ++ bytesOf 8 d.body.mtval.toNat ++ bytesOf 16 (Config.buildId d.slot (procCode d.proc)) ++ rest

/-- A crash dump by number, with its poison: in the ring or the AON buffer, else in the flash's area of 32. -/
def State.dumpOf (s : State) (n : Nat) : Option (List Byte × Bool) :=
  match (s.fw.dumps ++ (match s.fw.aonDump with
    | some d => [d]
    | none => [])).find? (fun d => d.num == n) with
  | some d => some (Dump.bytes d, d.poison)
  | none =>
    ((upto 32).find? (fun k => s.flashRead (flashDump k) 4 == [0x44, 0x55, 0x4D, 0x50] && fieldAt (s.flashRead (flashDump k) 24) 16 4 == n)).map
      (fun k => (s.flashRead (flashDump k) (min 0x10_0000 (fieldAt (s.flashRead (flashDump k) 24) 20 4)), false))

/-- DUMP_READ: as many of the dump's bytes as the length admits. -/
def State.doDump (s : State) (seq dump : W32) (host : W64) (len : W32) : State :=
  s.request rqDump seq true false (fun t =>
    match t.dumpOf dump.toNat with
    | some (d, bad) =>
      let bs := d.take len.toNat
      (t.hostWrite host bs bad).ok rqDump seq (bytesOf 4 bs.length)
    | none => t.respond rqDump seq stBadShape 0 [])

/-- ATTEST (R530): a quote and the two certificates; a length that is too small writes nothing. -/
def State.doAttest (s : State) (seq : W32) (nonce : BitVec 256) (form : Byte) (host : W64) (len : W32) : State :=
  s.request rqAttest seq false false (fun t => t.bySec rqAttest seq (.attest seq nonce form host len) (fun t =>
    let full := form == 1
    let need := 3509 + (if full then 96 * t.sec.mlog.length else 0) + 2 * certLen
    if 1 < form.toNat ∨ len.toNat < need then t.respond rqAttest seq stBadShape 0 []
    else
      let (q, t) := t.quote full nonce
      (t.hostWrite host (q ++ t.certs) false).ok rqAttest seq (bytesOf 4 need)))

/-! ### GO (R472) -/

/-- Bytes of the request buffer. -/
def State.reqBytes (s : State) (a n : Nat) : List Byte := (upto n).map (fun i => sparseGet 0 s.mbx.req (a + i))

/-- GO on the request in the buffer. -/
def State.go (s : State) : State :=
  let h := s.reqBytes 0 16
  let code := fieldAt h 0 2
  let seq := w32 (fieldAt h 4 4)
  let p := s.reqBytes 16 (min 4080 (fieldAt h 8 4))
  let b (i : Nat) : Byte := BitVec.ofNat 8 (fieldAt p i 1)
  let w (i : Nat) : W32 := w32 (fieldAt p i 4)
  if code = rqStatus then s.doStatus seq
  else if code = rqLog then s.doLog seq (w 0)
  else if code = rqRecover then s.doRecover seq (w 0) (p.drop 16)
  else if code = rqHello then s.doHello seq (b 0) (b 1)
  else if code = rqPriv then s.doPriv seq (b 0)
  else if code = rqCreate then s.doCreate seq (blockOf (p.take 64))
  else if code = rqDestroy then s.doDestroy seq (b 0)
  else if code = rqAbort then s.doAbort seq (b 0)
  else if code = rqRegion then s.doRegion seq (b 0) (b 1) (BitVec.ofNat 128 (fieldAt p 2 16)) (w 18)
  else if code = rqJob then s.doJob seq (fieldAt p 0 8) (fieldAt p 8 4)
  else if code = rqStage then s.doStage seq (BitVec.ofNat 48 (fieldAt p 0 8)) (w 8)
  else if code = rqActivate then s.doActivate seq
  else if code = rqGraft then s.doGraft seq
  else if code = rqDump then s.doDump seq (w 0) (BitVec.ofNat 64 (fieldAt p 4 8)) (w 12)
  else if code = rqAttest then s.doAttest seq (BitVec.ofNat 256 (fieldAt p 0 32)) (b 32) (BitVec.ofNat 64 (fieldAt p 40 8)) (w 48)
  else if s.mbx.busy then { s with mbx := { s.mbx with ignored := true } }
  else (s.wake .pcie).respond code seq stBadOpcode 0 []

/-! ### The requests as commands -/

def execGetStatus (seq : W32) (s : State) : Done := .next (s.doStatus seq)
def execLogRead (seq index : W32) (s : State) : Done := .next (s.doLog seq index)
def execRecoverWrite (seq off : W32) (data : List Byte) (s : State) : Done := .next (s.doRecover seq off data)
def execHello (seq : W32) (major minor : Byte) (s : State) : Done := .next (s.doHello seq major minor)
def execBar2Priv (seq : W32) (on : Byte) (s : State) : Done := .next (s.doPriv seq on)
def execCtxCreate (seq : W32) (rec : Block) (s : State) : Done := .next (s.doCreate seq rec)
def execCtxDestroy (seq : W32) (c : Byte) (s : State) : Done := .next (s.doDestroy seq c)
def execCtxAbort (seq : W32) (c : Byte) (s : State) : Done := .next (s.doAbort seq c)
def execRegionSet (seq : W32) (c index : Byte) (entry : BitVec 128) (timeout : W32) (s : State) : Done :=
  .next (s.doRegion seq c index entry timeout)
def execJobLoad (seq : W32) (addr : BitVec 48) (len : W32) (s : State) : Done := .next (s.doJob seq addr.toNat len.toNat)
def execGraftStage (seq : W32) (addr : BitVec 48) (len : W32) (s : State) : Done := .next (s.doStage seq addr len)
def execGraftActivate (seq : W32) (s : State) : Done := .next (s.doActivate seq)
def execGraftStatus (seq : W32) (s : State) : Done := .next (s.doGraft seq)
def execDumpRead (seq dump : W32) (host : W64) (len : W32) (s : State) : Done := .next (s.doDump seq dump host len)
def execAttest (seq : W32) (nonce : BitVec 256) (form : Byte) (host : W64) (len : W32) (s : State) : Done :=
  .next (s.doAttest seq nonce form host len)

/-- A request that waited for the SECP is served (R484). -/
def State.secRequest (s : State) : State :=
  match s.mbx.waitSec with
  | none => s
  | some i =>
    let s : State := { s with mbx := { s.mbx with busy := false, held := none, waitSec := none } }
    match i with
    | .recoverWrite seq off data => s.doRecover seq off data
    | .graftStage seq addr len => s.doStage seq addr len
    | .attest seq nonce form host len => s.doAttest seq nonce form host len
    | _ => s

end Sys2Proof.Machine
end

