-- ==== Sys2Proof/Machine/HostPort.lean ====
section
/-! DEFINITION. The host port (R187 to R190, R197, R199, R250, R267, R268, R419, R420, R451, R454, R471, R484, R514): doorbells, BAR2,
the PCIe link and its resets. -/

namespace Sys2Proof.Machine

open Sys2Proof

/-! ### Doorbells (R187, R197, R199) -/

/-- A doorbell write is a wake (R448, R451); before Stage 1 it has no other effect (R420); while no CSP of the context's set runs
it is latched (R484). -/
def State.doorbell (s : State) (c : Nat) (latch : Context → Context) (act : State → State) : State :=
  let s := s.doorbellWake
  match s.ctx c with
  | none => s
  | some x => if s.start.stage < 1 then s else if s.served x then act s else s.modCtx c latch


/-- A stream's grant moves on by the difference from the doorbell's previous value, modulo 2^32 (R187). -/
def Stream.advance (t : Stream) (v : W32) : Stream := { t with grant := t.grant + (v - t.prev).toNat, prev := v }

/-- A grant is the DMA engine's: it needs no CSP. Transfers that waited go on, except during a Frost. -/
def State.grantStream (s : State) (c k : Nat) (v : W32) : State :=
  let s := s.modCtx c (fun x => if x.status = .aborted ∨ x.status = .quarantined then x
    else { x with streams := x.streams.modify k (fun t => Stream.advance t v) })
  if s.frost.phase = .running ∨ s.frost.phase = .cutting then s.askAll c else s

/-- The doorbells of a page. -/
inductive Bell
  | tail
  | head
  | grant (stream : Nat)
deriving DecidableEq, Repr

/-- The offset of a doorbell in BAR0 (the *Doorbell page* table). -/
def bellOffset (c : Nat) : Bell → Nat
  | .tail => 0x10_0000 + c * 0x1000
  | .head => 0x10_0000 + c * 0x1000 + 8
  | .grant k => 0x10_0000 + c * 0x1000 + 0x40 + 4 * k

/-- The context and doorbell of a BAR0 offset: none for a reserved one. -/
def bellAt (off : Nat) : Option (Nat × Bell) :=
  let c := (off - 0x10_0000) / 0x1000
  let r := (off - 0x10_0000) % 0x1000
  if off < 0x10_0000 ∨ 64 ≤ c then none
  else if r = 0 then some (c, .tail)
  else if r = 8 then some (c, .head)
  else if 0x40 ≤ r ∧ r < 0x60 ∧ r % 4 = 0 then some (c, .grant ((r - 0x40) / 4))
  else none

/-- A 32-bit write in the doorbell pages; at a reserved offset it has no effect (R197). -/
def State.pageWrite (s : State) (off : Nat) (v : W32) : State :=
  match bellAt off with
  | some (c, .tail) => s.doorbell c (fun x => { x with latchedSq := some v }) (fun t => t.setTail c v)
  | some (c, .head) => s.doorbell c (fun x => { x with latchedCq := some v }) (fun t => t.setHead c v)
  | some (c, .grant k) =>
    let s := s.doorbellWake
    if s.start.stage < 1 then s else s.grantStream c k v
  | none => s

/-- A read in the doorbell pages gives zero at any offset, and changes nothing (R197). -/
def pageRead (_off : Nat) : W32 := 0

def execSqTail (c : Fin 64) (v : W32) (s : State) : Done := .next (s.pageWrite (bellOffset c .tail) v)
def execCqHead (c : Fin 64) (v : W32) (s : State) : Done := .next (s.pageWrite (bellOffset c .head) v)
def execStreamGrant (c : Fin 64) (stream : Fin 8) (v : W32) (s : State) : Done := .next (s.pageWrite (bellOffset c (.grant stream)) v)

/-! ### BAR2 (R267, R268, R420, R454, R514) -/

def bar2Gib30 : Nat := 0x4000_0000

/-- The offset of R268 that an offset in the BAR2 window stands for: below 512 GiB the window begins at the base register's value,
aligned to the window size. -/
def State.bar2Offset (s : State) (off : Nat) : Nat :=
  let g := max 1 s.pcie.bar2Gib
  off + (if 512 ≤ g then 0 else s.regs.bar2Base.toNat / g * g * bar2Gib30)

/-- The device address of an R268 offset: HBM data, cluster memory, or nothing. -/
def bar2Addr (o : Nat) : Option Nat :=
  if o < 0x78_0000_0000 then some o
  else if o < 0x78_0800_0000 then some (clusterMemBase + (o - 0x78_0000_0000))
  else none

/-- Where a BAR2 access of `n` bytes goes: nowhere, where one of its bytes maps to nothing. -/
def State.bar2Map (s : State) (off n : Nat) : Option Nat :=
  let o := s.bar2Offset off
  match bar2Addr o, bar2Addr (o + n - 1) with
  | some a, some _ => some a
  | _, _ => none

/-- Regions with HOST permission of the contexts that the host driver owns. -/
def State.hostRegions (s : State) : List Region :=
  s.ctxs.flatMap (fun (x : Option Context) => match x with
    | some x => (match x.owner with
      | .host _ => x.regions
      | .group => [])
    | none => [])

/-- Whether a BAR2 access passes its check (R267). -/
def State.bar2Pass (s : State) (a n : Nat) : Bool :=
  let l := s.hostRegions
  (s.mbx.priv && (decide (a + n ≤ hbmCtxEnd) || decide (clusterMemBase ≤ a ∧ a + n ≤ clusterMemBase + 8 * 0x100_0000)))
  || (firstHole l pmHost (a + n) (l.length + 1) a).isNone

/-- Whether HBM or cluster memory can be reached through BAR2 at the stage (R420) and at the shed stage (R454). -/
def State.bar2Open (s : State) (a : Nat) : Bool := decide ((if isHbm a then 2 else 1) ≤ s.start.stage ∧ s.pwr.shed < 6)

/-- A read through BAR2: data from the home, EP where a granule is poisoned (R250, R259); Completer Abort where it is not served. -/
def State.bar2Read (s : State) (off len : Nat) : State :=
  let s := s.wake .pcie
  match s.bar2Map off len with
  | none => (s.count blkPcie 0x05 1).emit .bar2Unsupported
  | some a =>
    if s.bar2Open a && s.bar2Pass a len then
      let (l, s) := s.loadHome .fabric a len
      let ep := !l.bad.isEmpty
      let s := if ep then s.count blkPcie 0x03 1 else s
      s.emit (.bar2Data l.bytes ep)
    else (s.count blkPcie 0x00 1).emit .bar2Abort

def execBar2Read (off len : Nat) (s : State) : Done := .next (s.bar2Read off len)

/-- A write through BAR2, performed at its home, every granule poisoned where EP is set (R250); discarded and counted where it is not
performed, in FROST too when a Frost is the cause (R514, R516). -/
def State.bar2Write (s : State) (off : Nat) (data : List Byte) (ep : Bool) : State :=
  let s := s.wake .pcie
  let s := if ep then s.count blkPcie 0x02 1 else s
  match s.bar2Map off data.length with
  | none => s.count blkPcie 0x05 1
  | some a =>
    if !(s.bar2Open a && s.bar2Pass a data.length) then s.count blkPcie 0x01 1
    else if s.frost.phase = .frozen ∧ s.frost.stateWrite = false then (s.count blkPcie 0x01 1).count blkFrost 0x03 1
    else s.poisonWatch (s.storeHome .fabric a data (if ep then granules a data.length else []))

def execBar2Write (off : Nat) (data : List Byte) (ep : Bool) (s : State) : Done := .next (s.bar2Write off data ep)

/-! ### The PCIe link (R190, R419, R471) -/

/-- The host session ends (R471): its contexts are aborted, its request withdrawn, BAR2_PRIV cleared; BAR2 is disabled, as the
endpoint's command register is reset (log entry 27). -/
def State.endSession (s : State) : State :=
  let s := (upto 64).foldl (fun (t : State) c => match t.ctx c with
    | some x => if x.planned then t else t.abortCtx c
    | none => t) s
  let s := s.withdrawRequest
  { s with mbx := { s.mbx with opened := false, priv := false }, pcie := { s.pcie with bar2On := false } }

def execFunctionLevelReset (s : State) : Done := .next s.endSession

/-- The link leaves L0: host reads outstanding are discarded and count as not received (R190). -/
def State.pcieDown (s : State) : State :=
  if !s.pcie.l0 then s
  else
    let s := s.count blkPcie 0x04 1
    { s with
      pcie := { s.pcie with l0 := false, rate := 0, width := 0, flitMode := false, training := !s.pcie.perst }
      ops := s.ops.map (fun (o : Op) => if hostTransfer o then { o with asked := o.bytes.length } else o) }

def execPcieLinkDown (s : State) : Done := .next s.pcieDown

/-- The link is in L0 at a rate and width, in flit mode at 64 GT/s (R467); the DMA engines issue the discarded reads again (R190). -/
def execPcieLinkUp (rate : Fin 16) (width : Fin 32) (s : State) : Done :=
  .next (if s.pcie.l0 ∨ !s.pcie.training then s
    else
      let s : State := { s with pcie := { s.pcie with l0 := true, training := false, rate := rate, width := width, flitMode := rate == 6 } }
      (upto 64).foldl (fun (t : State) c => t.askAll c) s)

/-- PERST# is asserted: the session ends as at a Function Level Reset, and the link goes down (R471). -/
def execPerstAssert (s : State) : Done :=
  .next (let s := { (s.endSession) with pcie := { (s.endSession).pcie with perst := true } }
    let s := s.pcieDown
    { s with pcie := { s.pcie with training := false } })

/-- Whether Stage 0 has been reached since PWR_GOOD: step 7 of the power-up has been acknowledged, or a thermal trip holds the device
there. -/
def State.stage0Reached (s : State) : Bool := decide (8 ≤ s.start.seqPos) || s.therm.tripPin

/-- PERST# is deasserted: link training begins once step 7 is acknowledged (R419). -/
def execPerstDeassert (s : State) : Done :=
  .next (if s.pcie.perst then { s with pcie := { s.pcie with perst := false, training := s.stage0Reached && !s.pcie.l0 } } else s)

/-- A Configuration Request (R419): retried before Stage 0, else answered; it may enable or disable BAR2 and size it (R268, R468). -/
def execConfigurationRequest (bar2 : Option (Bool × Fin 10)) (s : State) : Done :=
  .next (if !s.stage0Reached then s.emit .configRetry
    else
      let s : State := match bar2 with
        | some (on, k) => { s with pcie := { s.pcie with bar2On := on, bar2Gib := 2 ^ k.val } }
        | none => s
      s.emit .configOk)

end Sys2Proof.Machine
end

