-- ==== Sys2Proof/Machine/Procs.lean ====
section
/-! DEFINITION. Crash and restart of the firmware processors (R464 to R466, R483 to R487, R492, R502, R505, R611). -/

namespace Sys2Proof.Machine

open Sys2Proof

/-! ### Crash dumps (R483) -/

def crashCode : CrashCause → Nat
  | .exception => 1
  | .silent => 2
  | .assertion => 3
  | .inHandler => 4

/-- The SECP copies a dump to the next of the 32 places of the flash's area. -/
def State.dumpToFlash (s : State) (d : Dump) : State :=
  let s := s.flashWrite (flashDump s.flash.dumpNext) (Dump.bytes d)
  { s with flash := { s.flash with dumpNext := (s.flash.dumpNext + 1) % 32 } }

/-- Dumps that waited for the SECP are copied, in order. -/
def State.flushDumps (s : State) : State :=
  (s.fw.dumpWait).foldl (fun (t : State) d => t.dumpToFlash d) (s.modFw (fun f => { f with dumpWait := [] }))

/-- The boot ROM fault handler writes a dump with the last 256 log entries: to the ring from Stage 2, before that to the AON buffer;
where policy asks for it, to the flash. Vector 65, and trace point 0x7005. -/
def State.putDump (s : State) (p : Proc) (cause : CrashCause) (body : DumpBody) : State :=
  let n := s.fw.dumpNum + 1
  let d : Dump :=
    { num := n, proc := p, cause := crashCode cause, slot := (s.proc (procNum p)).slot, time := s.time.now, body := body
      logs := (s.log.ring.take 256).reverse, poison := false }
  let s := s.modFw (fun f => { f with dumpNum := n })
  let s := if 2 ≤ s.start.stage then s.modFw (fun f => { f with dumps := (d :: f.dumps).take 16 }) else s.modFw (fun f => { f with aonDump := some d })
  let s := if s.cfg 0x1_0200 % 2 = 1 then s.modFw (fun f => { f with dumpWait := f.dumpWait ++ [d] }) else s
  let s := if (s.proc 0).runs ∧ p ≠ .secp then s.flushDumps else s
  (s.msix 65).logEntry (BitVec.ofNat 8 (procCode p)) sevError 0x7005 [procCode p, crashCode cause, n]

/-! ### Crash (R484 to R487) -/

/-- What the DMP's fault handler sends before it writes the dump (R485, R486). -/
def State.dmpLast (s : State) : State :=
  let s := match s.isManager, s.group.deputy with
    | true, some d => s.sendGroup d gtReport (BitVec.ofNat 8 rpPeerReset :: bytesOf 2 s.group.self.toNat)
    | _, _ => s
  if s.group.state = .admitted ∨ s.group.state = .running then s.heartbeat else s

/-- The restart of a crashed processor begins as a recovery, escalated at once for a fault within the handler and for a second crash
within 1 s of a restart (R483, R487); during another recovery it is a second fault (R505). A parked device escalates nothing. -/
def State.crashTaken (s : State) (p : Proc) (again : Bool) : State :=
  let esc := again && !s.sun.parked
  match s.sun.recov with
  | none =>
    let s := s.startReset (.proc p) false false whyFatal
    if esc then s.escalate (.proc p) else s
  | some r =>
    if esc ∧ p ≠ .dmp then (s.sunEvent evSecondFault).escalateTo (.proc p) .warm
    else s.secondFault r (.unit (.proc p))

/-- A processor crashes. -/
def State.crash (s : State) (p : Proc) (cause : CrashCause) (body : DumpBody) : State :=
  let i := procNum p
  let again := cause == .inHandler || (match (s.proc i).lastRun with
    | some t => decide (s.nowN < t + 1000000000)
    | none => false)
  let s := if p = .dmp then s.dmpLast else s
  let s := (s.putDump p cause body).modProc i (fun q => { q with runs := false })
  let s := if p = .pmp then s.pwrDo (fun t => { t with pwr := { t.pwr with fwForced := true } }) else s
  let s := if s.fw.phase = phRunning ∨ s.fw.phase = phTrial then s.graftBack gcCrash i else s
  s.crashTaken p again

/-- A processor takes an unhandled exception or fails an assertion, or its handler faults while it is down (R483). -/
def execProcessorCrash (p : Proc) (cause : CrashCause) (dump : DumpBody) (s : State) : Done :=
  .next (let inHandler := cause == .inHandler && (match s.sun.recov with
      | some r => r.unit == .proc p
      | none => false)
    if (s.proc (procNum p)).runs || inHandler then s.crash p cause dump else s)

/-- A processor whose heartbeat counter has not moved for 20 ms is hung, and treated as crashed (R466, R495). -/
def execProcessorSilent (p : Proc) (dump : DumpBody) (s : State) : Done :=
  .next (if s.judges && (s.proc (procNum p)).runs && decide ((s.proc (procNum p)).beatT + 20000000 ≤ s.nowN) then
      let s := ((s.count blkSun 0x04 1).setCounter blkSun 0x11 s.nowN).sunEvent evHang
      let s : State := { s with sun := { s.sun with lastKind := 5, lastUnit := procCode p } }
      (s.logEntry srcAon sevError 0x7001 [5, procCode p, 20]).crash p .silent dump
    else s)

/-! ### Restart (R231, R465, R484, R485) -/

/-- A restarted CSP writes the records of held completions, and reissues or ends each command of its cluster that is not complete
(R231, R484); during a Frost, at thaw (R233). -/
def State.cspRecover (s : State) (n : Nat) : State :=
  if s.frost.phase = .frozen ∨ s.frost.phase = .thawing then s.modCluster n (fun k => { k with cspDue := true })
  else
    let s := (s.cspBack n).modCluster n (fun k => { k with cspDue := false, progT := s.nowN })
    let mine := s.ops.filter (fun o => o.cluster == n && o.phase != .restart)
    let s := mine.foldl (fun (t : State) (o : Op) => match t.op? o.ctx o.idx with
      | some q => t.handleRestart q
      | none => t) s
    s.settleAll

/-- What a processor does first when it runs again. -/
def State.procBack (s : State) (p : Proc) : State :=
  match p with
  | .csp n => s.cspRecover n
  | .pmp =>
    let s := allRails.foldl (fun (t : State) r => t.emit (.readStatus r)) s
    s.pwrDo (fun t => { t with pwr := { t.pwr with fwForced := false } })
  | .dmp =>
    let s := (s.withdrawRequest).heartbeat
    let dep := s.group.deputy
    let s := if s.isManager then (s.rejoin).modGroup (fun g => { g with manager := dep.getD g.manager }) else s
    (s.copyNow).drain
  | .secp =>
    let s : State := { s with sec := { s.sec with pufFail := !Config.pufGood } }
    ((s.flushDumps).secpBack).secRequest

/-- A crashed processor restarts from its boot ROM and its copy in SRAM, whose digest is checked first (R465). -/
def execProcessorRestart (p : Proc) (digestOk : Bool) (s : State) : Done :=
  .next (match s.sun.recov with
    | some r =>
      if r.unit ≠ .proc p ∨ (unitAt (s.proc (procNum p)) s.fw.procs (procNum p)).runs then s
      else if !digestOk then (s.sunEvent evSecondFault).fatal fcImage (procCode p)
      else
        let s := s.modProc (procNum p) (fun q => { q with runs := true, beatT := s.nowN, lastRun := some s.nowN })
        s.procBack p
    | none => s)

end Sys2Proof.Machine
end

