-- ==== Sys2Proof/Machine/Receive.lean ====
section
/-! DEFINITION. The receiving side of the Runner links (R297 to R306, R312 to R314, R318, R320, R323, R326, R327, R512, R515): flits,
control flits and their events, whole messages, WAKE frames, the end of a thaw. A message row stands for the receipt of all of that
message's flits. -/

namespace Sys2Proof.Machine

open Sys2Proof

/-! ### Whole messages (R309 to R314, R324, R360, R512) -/

/-- A message for this device that no rule holds back acts. -/
def State.perform (s : State) (n : Nat) (m : Msg) : State :=
  if m.op = opColl ∨ m.op = opCollCheck then
    s.collArrive n m
  else
    let s := s.freeBuffers n m
    if m.op = opWrite then s.inWrite m
    else if m.op = opWriteAck then s.inWriteAck m
    else if m.op = opReadReq then s.inReadReq m
    else if m.op = opReadResp then s.inReadResp m
    else if m.op = opSignal then s.inSignal m
    else if m.op = opSignalAck then s.inSignalAck m
    else if m.op = opGrantReq then s.inGrantReq m
    else if m.op = opGrantResp then s.inGrantResp m
    else if m.op = opGrantRelease then s.inGrantRelease m
    else s.inRouteErr m

/-- A message received whole on a link (R312): dropped before the peer's admission (R314) or for its OP; GROUP and ATTEST go to the
control complex, which runs during a Frost; any other stays in the receive buffer from the cut to the end of the thaw (R512), and is
then forwarded or performed. -/
def State.deliver (s : State) (n : Nat) (m : Msg) : State :=
  if !(s.link n).admitted && !msgPreAdmission m then (s.freeBuffers n m).count (blkLink n) 0x0B 1
  else if (vcOf m.op).isNone then (((s.freeBuffers n m).linkEvent n evMisroute).count (blkLink n) 0x0B 1)
  else if m.op = opGroup then (s.freeBuffers n m).groupIn n s.nowN m
  else if m.op = opAttest then (s.freeBuffers n m).attestIn n m
  else if s.frost.phase = .frozen ∨ s.frost.phase = .thawing then { s with frost := { s.frost with held := s.frost.held ++ [(n, m)] } }
  else if m.dst ≠ s.group.self then (s.freeBuffers n m).forward n m
  else s.perform n m

/-- The thaw is complete (R515): RUNNING again; held messages act in the order they came (R512), restarted CSPs take up their
commands, and plan copying that waited goes on. -/
def execFrostThawDone (s : State) : Done :=
  .next (if s.frost.phase ≠ .thawing then s
    else
      let q := s.frost.held
      let s := ({ s with frost := { s.frost with held := [] } } : State).thawDone
      let s := q.foldl (fun (t : State) (e : Nat × Msg) => t.deliver e.1 e.2) s
      let s := (upto 8).foldl (fun (t : State) n =>
        if (t.cluster n).cspDue then t.cspRecover n else if (t.proc (3 + n)).runs then t.cspBack n else t) s
      (s.copyNow).drain)

/-! ### Flits (R300 to R306, R323, R326) -/

/-- Whether flits come on a link: NEGOTIATE, UP, and KEEPALIVE until the peer has ended its message too. -/
def LinkState.hears : LinkState → Bool
  | .negotiate => true
  | .up => true
  | .keepalive => true
  | _ => false

/-- A control flit of this end, where the link sends flits. -/
def State.answer (s : State) (n : Nat) (nak : Bool) : State :=
  if (s.link n).state = .up ∨ (s.link n).state = .negotiate then s.sendControl n nak [] else s

/-- `k` flits are accepted (R305): sent again, while as many have not come again as were discarded. -/
def State.accept (s : State) (n k : Nat) : State :=
  (s.modLink n (fun l =>
    { l with
      rxSeq := l.rxSeq + BitVec.ofNat 32 k
      nakSent := false
      resent := decide (0 < l.again)
      again := l.again - k
      sinceAck := l.sinceAck + k })).count (blkLink n) 0x01 k

/-- An acknowledgement at least once every 64 flits accepted (R305). -/
def State.ackDue (s : State) (n : Nat) : State := if 64 ≤ (s.link n).sinceAck then s.answer n false else s

/-- Accept the `k` flits of a message, with the acknowledgements that fall due before its last one, by fuel. -/
def State.acceptAll (s : State) (n k : Nat) : Nat → State
  | 0 => s.accept n k
  | f + 1 =>
    let j := if (s.link n).sinceAck < 64 then min k (64 - (s.link n).sinceAck) else k
    let s := s.accept n j
    if k ≤ j then s else (s.ackDue n).acceptAll n (k - j) f

/-- A flit is discarded, with one NAK until a flit has passed (R305); a message passing through is held open (R326). -/
def State.discardFlit (s : State) (n : Nat) : State :=
  let nak := (s.link n).nakSent
  let s := s.modLink n (fun l => { l with again := l.again + 1, nakSent := true })
  if nak then s else (s.answer n true).holdThrough n

/-- A flit fails its check (R300, R305). -/
def State.badFlit (s : State) (n : Nat) : State := (s.count (blkLink n) 0x02 1).discardFlit n

/-- The FEC cannot correct a codeword: the flits it carries are bad (R297). -/
def State.badCodeword (s : State) (n : Nat) : State := (s.count (blkLink n) 0x05 1).discardFlit n

/-- Symbols that the FEC corrected in the codewords of a flit, counted (R297, R330): at most 15 in each of two codewords, and otherwise a
free value (log entry 70). -/
def State.fecFixed (s : State) (n : Nat) : State :=
  ({ s with free := s.free + 1 }).count (blkLink n) 0x04 (Config.readError s.free % 31)

/-- A message from its header flit, with the data bytes the header carries, and its LENGTH. -/
def msgOf (body : List Byte) : Msg × Nat :=
  let len := fieldAt body 14 2
  ({ vc := bitsOf (fieldAt body 0 1) 6 4, op := fieldAt body 1 1, dst := BitVec.ofNat 12 (fieldAt body 2 2)
     src := BitVec.ofNat 12 (fieldAt body 4 2), job := BitVec.ofNat 16 (fieldAt body 6 2), addr := BitVec.ofNat 48 (fieldAt body 8 6)
     hops := fieldAt body 16 1, tag := BitVec.ofNat 16 (fieldAt body 18 2), opword := BitVec.ofNat 32 (fieldAt body 20 4)
     poison := blockOf ((body.drop 24).take 64), data := (body.drop 88).take (min 164 len) }, len)

/-- A header flit: the message takes its buffers and begins. One whose data stand all in the header is whole; one for another chip passes
on as it comes as soon as it can (R323). -/
def State.rxHeader (s : State) (n : Nat) (body : List Byte) : State :=
  let (m, len) := msgOf body
  let s := s.fillBuffers n m.vc (1 + dataFlits len)
  let r : RxMsg := { msg := m, body := body, length := len, mode := if m.dst = s.group.self then .keep else .wait }
  if len ≤ 164 then s.deliver n m
  else match s.cutPort n m len with
    | none => s.modLink n (fun l => { l with rx := some r })
    | some p => s.throughOn n p r

/-- A data flit of the open message. -/
def State.rxData (s : State) (n : Nat) (r : RxMsg) (body : List Byte) : State :=
  let m : Msg := { r.msg with data := (r.msg.data ++ body).take r.length }
  let whole := decide (r.length ≤ m.data.length)
  let s := s.modLink n (fun l => { l with rx := if whole then none else some { r with msg := m } })
  match r.mode with
  | .keep => if whole then s.deliver n m else s
  | .wait => if whole then s.deliver n m else s
  | .through p =>
    let s := (s.endHold p).sendFlit p body 0
    if whole then
      let m' : Msg := { m with hops := m.hops + 1 }
      (((((s.noteForwarded p m').emit (.message p m')).closeThrough p).freeBuffers n m).sawGroup m)
    else s
  | .drop => if whole then s.freeBuffers n m else s

/-- A stomped flit: the whole open message is discarded and counted (R326). -/
def State.rxStomp (s : State) (n : Nat) : State :=
  match (s.link n).rx with
  | none => s
  | some r =>
    let m : Msg := { r.msg with data := List.replicate r.length 0 }
    let s := (s.modLink n (fun l => { l with rx := none })).count (blkLink n) 0x0A 1
    let s := match r.mode with
      | .through p => s.stomp p
      | _ => s
    s.freeBuffers n m

/-! ### Control flits (R303, R306) -/

/-- The larger of two cumulative counts, modulo 2^32 (R303). -/
def later (a b : W32) : W32 := if (b - a).toNat < 2 ^ 31 then b else a

/-- The control flit a body spells. -/
def controlOf (body : List Byte) : Control :=
  { nak := bitOf (fieldAt body 1 1) 0
    ackSeq := BitVec.ofNat 32 (fieldAt body 4 4)
    shared := BitVec.ofNat 32 (fieldAt body 8 4)
    vcCredit := (upto 8).map (fun i => BitVec.ofNat 32 (fieldAt body (12 + 4 * i) 4))
    events := ((upto 4).map (fun i => (body.drop (48 + 48 * i)).take 48)).map (fun r => { code := fieldAt r 0 1, bytes := r }) }

/-- Acknowledgements and credits of a control flit (R303). -/
def Link.heed (l : Link) (c : Control) (now : Nat) : Link :=
  let ack := later l.ackedSeq c.ackSeq
  { l with
    ackedSeq := ack
    replay := l.replay.filter (fun f => decide ((f.seq - ack).toNat < 2 ^ 31))
    fwdWrites := l.fwdWrites.filter (fun q => decide ((q - ack).toNat < 2 ^ 31))
    noProg := if ack = l.ackedSeq then l.noProg else 0
    ackProgT := if ack = l.ackedSeq then l.ackProgT else now
    crShared := later l.crShared c.shared
    crVc := (l.crVc.zipIdx).map (fun e => later e.1 (unitAt e.1 c.vcCredit e.2)) }

/-- IDENT in NEGOTIATE (R318): checked in order; REFUSED, or UP with a challenge to the peer (R531). -/
def State.inIdent (s : State) (n : Nat) (e : LinkEvent) : State :=
  if (s.link n).state ≠ .negotiate then s
  else
    let chip := fieldAt e.bytes 2 2 % 4096
    let port := fieldAt e.bytes 4 1
    let s := s.modLink n (fun l =>
      { l with
        peerChip := BitVec.ofNat 12 chip
        peerPort := BitVec.ofNat 5 port
        peerSer := BitVec.ofNat 64 (fieldAt e.bytes 8 8) })
    let p := s.port n
    if fieldAt e.bytes 5 1 ≠ 1 then s.linkDown n .refused dcVersion
    else if (p.peerChip ≠ 0xFFFF ∧ p.peerChip.toNat ≠ chip) ∨ (p.peerPort ≠ 0xFF ∧ p.peerPort.toNat ≠ port) then
      s.linkDown n .refused dcPeerMismatch
    else
      let s := s.modLink n (fun l => { l with state := .up, minor := min 0 (fieldAt e.bytes 6 1), upT := s.nowN })
      if (s.proc 0).runs then s.challenge n else s

/-- FROST_MARK (R320, R510): a group mark with a new number brings this device to its cut; any other is recorded. -/
def State.inMark (s : State) (n : Nat) (e : LinkEvent) : State :=
  let id := fieldAt e.bytes 4 4
  let s := s.modLink n (fun l => { l with markSeen := some (BitVec.ofNat 32 id) })
  let num := BitVec.ofNat 31 id
  if bitOf id 31 && s.frostNew num then s.frostGroup num (BitVec.ofNat 12 (fieldAt e.bytes 8 2)) else s

/-- KEEPALIVE_REQ (R327): this end asks in turn and enters KEEPALIVE after its current message, or leaves it. -/
def State.inKeepalive (s : State) (n : Nat) (e : LinkEvent) : State :=
  if fieldAt e.bytes 4 1 = 1 then s.sleepLink n
  else
    let s := s.modLink n (fun l => { l with evDue := l.evDue.filter (fun q => q.code != 0x05) })
    if (s.link n).state = .keepalive then (s.modLink n (fun l => { l with state := .up })).pump n else s

/-- One event record of a control flit (the *Link events* table). -/
def State.inEvent (s : State) (n : Nat) (e : LinkEvent) : State :=
  match e.code with
  | 0x01 => s.inSyncReq n e
  | 0x02 => s.inSyncResp n e
  | 0x03 => s.inMark n e
  | 0x04 => s.inIdent n e
  | 0x05 => s.inKeepalive n e
  | _ => s

/-- What a control flit does: credits and acknowledgements, a replay on NAK unless an older one comes late (R303, R306), the control flits
that the replay buffer has room for now, its events, and the messages that may go. -/
def State.control (s : State) (n : Nat) (c : Control) : State :=
  let fresh := later (s.link n).ackedSeq c.ackSeq == c.ackSeq
  let s := s.modLink n (fun l => l.heed c s.nowN)
  let s := if c.nak && fresh && !(s.link n).replay.isEmpty then s.replayOrRetrain n else s
  let s := c.events.foldl (fun (t : State) e => t.inEvent n e) (s.sendDue n)
  s.goOn n

/-- An accepted flit that neither holds nor stomps: the next of the open message, a control flit, or a header flit. -/
def State.rxFlit (s : State) (n : Nat) (body : List Byte) : State :=
  match (s.link n).rx with
  | some r => s.rxData n r body
  | none => if fieldAt body 0 1 % 16 = 0 then s.control n (controlOf body) else s.rxHeader n body

/-- A flit arrives (R297, R300, R302, R305, R326); an empty one stands for those of a codeword that the FEC could not correct. -/
def State.receive (s : State) (n : Nat) (flit : List Byte) : State :=
  if flit.isEmpty then s.badCodeword n
  else
  let s := s.fecFixed n
  let l := s.link n
  let body := flit.take 252
  let crc := fieldAt flit 252 4
  let want := flitCrc body l.rxSeq
  if flit.length ≠ 256 ∨ (l.rx.isNone ∧ crc = want ∧ 1 < fieldAt body 0 1 % 16) then s.badFlit n
  else if crc = want then ((s.accept n 1).rxFlit n body).ackDue n
  else if crc = want ^^^ holdMark then ((s.accept n 1).holdThrough n).ackDue n
  else if crc = want ^^^ stompMark then ((s.accept n 1).rxStomp n).ackDue n
  else s.badFlit n

/-- A flit on a link that hears none is lost. -/
def execReceiveFlit (n : Fin 24) (flit : List Byte) (s : State) : Done :=
  .next (if (s.link n).state.hears then s.receive n flit else s)

/-- A control flit arrives whole; none lies inside a message (R302). -/
def execControlFlit (n : Fin 24) (ctl : Control) (s : State) : Done :=
  .next (if (s.link n).state.hears && (s.link n).rx.isNone then ((s.accept n 1).control n ctl).ackDue n else s)

/-- WAKE frames from the peer (R327, R451): UP again, which a control flit shows, and a wake; held at shed stage 6 (R455). -/
def execWakeFrame (n : Fin 24) (s : State) : Done :=
  .next (if (s.link n).state ≠ .keepalive then s
    else if 6 ≤ s.pwr.shed then (if s.wakeOn (.runner n) then { s with pwr := { s.pwr with runnerWake := some n } } else s)
    else (((s.modLink n (fun l => { l with state := .up })).answer n false).wake (.runner n)).pump n)

/-! ### The message rows -/

/-- All flits of a message arrive in order on a link that is UP: accepted, in the link's buffers, acknowledged as they fall due. -/
def State.recvMsg (s : State) (n : Nat) (m : Msg) : State :=
  let k := 1 + dataFlits m.data.length
  if (s.link n).state.hears && (s.link n).rx.isNone then (((s.acceptAll n k 2).fillBuffers n m.vc k).deliver n m).ackDue n else s

/-- A message with the operation, and so the virtual channel, of its row. -/
def asOp (op : Nat) (m : Msg) : Msg := { m with op := op, vc := (vcOf op).getD 0 }

/-- A GROUP message of a type, or an ATTEST message: the low byte of OPWORD (R389, R531). -/
def asTyped (op t : Nat) (m : Msg) : Msg := { asOp op m with opword := BitVec.ofNat 32 (m.opword.toNat / 256 * 256 + t) }

def execWrite (n : Fin 24) (m : Msg) (s : State) : Done := .next (s.recvMsg n (asOp opWrite m))
def execWriteAck (n : Fin 24) (m : Msg) (s : State) : Done := .next (s.recvMsg n (asOp opWriteAck m))
def execReadReq (n : Fin 24) (m : Msg) (s : State) : Done := .next (s.recvMsg n (asOp opReadReq m))
def execReadResp (n : Fin 24) (m : Msg) (s : State) : Done := .next (s.recvMsg n (asOp opReadResp m))
def execRemoteSignal (n : Fin 24) (m : Msg) (s : State) : Done := .next (s.recvMsg n (asOp opSignal m))
def execSignalAck (n : Fin 24) (m : Msg) (s : State) : Done := .next (s.recvMsg n (asOp opSignalAck m))
def execGrantReq (n : Fin 24) (m : Msg) (s : State) : Done := .next (s.recvMsg n (asOp opGrantReq m))
def execGrantResp (n : Fin 24) (m : Msg) (s : State) : Done := .next (s.recvMsg n (asOp opGrantResp m))
def execGrantRelease (n : Fin 24) (m : Msg) (s : State) : Done := .next (s.recvMsg n (asOp opGrantRelease m))
def execRouteErr (n : Fin 24) (m : Msg) (s : State) : Done := .next (s.recvMsg n (asOp opRouteErr m))
def execColl (n : Fin 24) (m : Msg) (s : State) : Done := .next (s.recvMsg n (asOp opColl m))
def execCollCheck (n : Fin 24) (m : Msg) (s : State) : Done := .next (s.recvMsg n (asOp opCollCheck m))

def execJoin (n : Fin 24) (m : Msg) (s : State) : Done := .next (s.recvMsg n (asTyped opGroup gtJoin m))
def execAdmit (n : Fin 24) (m : Msg) (s : State) : Done := .next (s.recvMsg n (asTyped opGroup gtAdmit m))
def execRefuse (n : Fin 24) (m : Msg) (s : State) : Done := .next (s.recvMsg n (asTyped opGroup gtRefuse m))
def execFormed (n : Fin 24) (m : Msg) (s : State) : Done := .next (s.recvMsg n (asTyped opGroup gtFormed m))
def execJob (n : Fin 24) (m : Msg) (s : State) : Done := .next (s.recvMsg n (asTyped opGroup gtJob m))
def execPlan (n : Fin 24) (m : Msg) (s : State) : Done := .next (s.recvMsg n (asTyped opGroup gtPlan m))
def execHeartbeat (n : Fin 24) (m : Msg) (s : State) : Done := .next (s.recvMsg n (asTyped opGroup gtHeartbeat m))
def execMgrBeat (n : Fin 24) (m : Msg) (s : State) : Done := .next (s.recvMsg n (asTyped opGroup gtMgrBeat m))
def execReport (n : Fin 24) (m : Msg) (s : State) : Done := .next (s.recvMsg n (asTyped opGroup gtReport m))
def execWithdraw (n : Fin 24) (m : Msg) (s : State) : Done := .next (s.recvMsg n (asTyped opGroup gtWithdraw m))
def execDiscard (n : Fin 24) (m : Msg) (s : State) : Done := .next (s.recvMsg n (asTyped opGroup gtDiscard m))
def execThaw (n : Fin 24) (m : Msg) (s : State) : Done := .next (s.recvMsg n (asTyped opGroup gtThaw m))
def execCommit (n : Fin 24) (m : Msg) (s : State) : Done := .next (s.recvMsg n (asTyped opGroup gtCommit m))
def execTakeover (n : Fin 24) (m : Msg) (s : State) : Done := .next (s.recvMsg n (asTyped opGroup gtTakeover m))

def execChallenge (n : Fin 24) (m : Msg) (s : State) : Done := .next (s.recvMsg n (asTyped opAttest atChallenge m))
def execResponse (n : Fin 24) (m : Msg) (s : State) : Done := .next (s.recvMsg n (asTyped opAttest atResponse m))
def execVerdict (n : Fin 24) (m : Msg) (s : State) : Done := .next (s.recvMsg n (asTyped opAttest atVerdict m))

end Sys2Proof.Machine
end

