-- ==== Sys2Proof/Machine/Ecc.lean ====
section
/-! DEFINITION. The outer code of the HBM controllers (R239, R240, R244 to R247): GF(2^8), check bytes, poison marks, the decoder.
The symbols of a codeword stand in the order A0 to A4, the 64 data bytes, the 4 check bytes, the first at the highest power of x
(DEDUCED, log entry 28). -/

namespace Sys2Proof.Machine

open Sys2Proof

/-! ### GF(2^8) with x^8 + x^4 + x^3 + x^2 + 1 (R244) -/

def gfDouble (a : Nat) : Nat := if 2 * a < 256 then 2 * a else (2 * a) ^^^ 0x11D

/-- The product, over the bits of `a` from the lowest. -/
def gfMulN : Nat → Nat → Nat → Nat
  | 0, _, _ => 0
  | k + 1, a, b => (if a % 2 = 1 then b else 0) ^^^ gfMulN k (a / 2) (gfDouble b)

def gfMul (a b : Nat) : Nat := gfMulN 8 a b

/-- A power of α, which is the element 2. -/
def gfExp : Nat → Nat
  | 0 => 1
  | k + 1 => gfDouble (gfExp k)

/-- The inverse of an element: its 254th power. -/
def gfInv (a : Nat) : Nat := (List.replicate 254 a).foldl gfMul 1

/-- A polynomial, highest coefficient first, at a point. -/
def gfEval (cs : List Nat) (x : Nat) : Nat := cs.foldl (fun acc c => gfMul acc x ^^^ c) 0

/-! ### Codewords (R244) -/

/-- The generator (x - α^0)(x - α^1)(x - α^2)(x - α^3) without its leading 1, highest coefficient first. -/
def gfTimes (p : List Nat) (root : Nat) : List Nat := ((p ++ [0]).zip (0 :: p)).map (fun (e : Nat × Nat) => e.1 ^^^ gfMul root e.2)
def rsGen : List Nat := (gfTimes (gfTimes (gfTimes (gfTimes [1] (gfExp 0)) (gfExp 1)) (gfExp 2)) (gfExp 3)).drop 1

/-- The four check bytes of symbols: the remainder of their polynomial times x^4 by the generator. -/
def rsCheck (syms : List Nat) : List Nat :=
  syms.foldl (fun (r : List Nat) (v : Nat) =>
    let f := v ^^^ r.headD 0
    ((r.drop 1 ++ [0]).zip rsGen).map (fun (e : Nat × Nat) => e.1 ^^^ gfMul f e.2)) [0, 0, 0, 0]

/-- The address symbols A0 to A4 of a sector (R244). -/
def addrSyms (stack p q : Nat) : List Nat := (stack + 8 * p) :: ((upto 4).map (fun i => q / 256 ^ i % 256))

/-- The poison marks of R246, by the granules they name: low, high. -/
def rsMark (lo hi : Bool) : List Nat :=
  if lo && hi then [0xA6, 0xEE, 0xBD, 0xB2] else if lo then [0x8F, 0x3A, 0xC6, 0x51] else if hi then [0x29, 0xD4, 0x7B, 0xE3] else [0, 0, 0, 0]

/-- The check bytes as stored: with the mark of the poisoned granules added. -/
def storedCheck (addr data : List Nat) (lo hi : Bool) : List Nat := ((rsCheck (addr ++ data)).zip (rsMark lo hi)).map (fun e => e.1 ^^^ e.2)

/-! ### The decoder (R245, R246) -/

/-- The four syndromes of 73 symbols. -/
def rsSyn (syms : List Nat) : List Nat := (upto 4).map (fun j => gfEval syms (gfExp j))

/-- The locator of the symbol at a place. -/
def rsLoc (i : Nat) : Nat := gfExp (72 - i)

/-- What errors in at most `k` symbols explain syndromes: places and values; none where nothing does. -/
def rsErrors (k : Nat) (syn : List Nat) : Option (List (Nat × Nat)) :=
  let s (j : Nat) : Nat := unitAt 0 syn j
  if syn.all (fun v => v == 0) then some []
  else
    let one := (upto 73).find? (fun i => s 0 != 0 && gfMul (s 0) (rsLoc i) == s 1 && gfMul (s 1) (rsLoc i) == s 2 && gfMul (s 2) (rsLoc i) == s 3)
    match one with
    | some i => some [(i, s 0)]
    | none =>
      if k < 2 then none
      else
        ((upto 73).flatMap (fun i => (upto i).map (fun j => (j, i)))).findSome? (fun e =>
          let x := rsLoc e.1
          let y := rsLoc e.2
          let s1 := x ^^^ y
          let s2 := gfMul x y
          if (gfMul s1 (s 1) ^^^ gfMul s2 (s 0)) == s 2 && (gfMul s1 (s 2) ^^^ gfMul s2 (s 1)) == s 3 then
            let a := gfMul (s 1 ^^^ gfMul (s 0) y) (gfInv s1)
            some [(e.1, a), (e.2, s 0 ^^^ a)]
          else none)

/-- What the decoder finds in a sector. -/
inductive Decoded
  | data (bytes : List Nat) (fixed : Nat) (lo hi : Bool)
  | uncorrectable
deriving DecidableEq, Repr

/-- Decode a sector read at a place (R245, R246): first as a codeword plus one mark with at most one more symbol error, then with at
most two; an error located in an address symbol makes it uncorrectable. -/
def rsDecode (addr stored : List Nat) : Decoded :=
  let fix (es : List (Nat × Nat)) : List Nat :=
    (((stored.take 64).zipIdx).map (fun b => es.foldl (fun v e => if e.1 = b.2 + 5 then v ^^^ e.2 else v) b.1))
  let tryMark (m : Bool × Bool) : Option Decoded :=
    let mk := rsMark m.1 m.2
    let syms := addr ++ stored.take 64 ++ (((stored.drop 64).zip mk).map (fun e => e.1 ^^^ e.2))
    match rsErrors 1 (rsSyn syms) with
    | some es => if es.all (fun e => decide (5 ≤ e.1)) then some (.data (fix es) es.length m.1 m.2) else none
    | none => none
  match [(true, false), (false, true), (true, true)].findSome? tryMark with
  | some d => d
  | none =>
    match rsErrors 2 (rsSyn (addr ++ stored)) with
    | some es => if es.all (fun e => decide (5 ≤ e.1)) then .data (fix es) es.length false false else .uncorrectable
    | none => .uncorrectable

/-! ### Places (R239, R240) -/

/-- The address of data sector `q` of a pseudo-channel of a stack. -/
def sectorAddr (stack p q : Nat) : Nat :=
  let g := q / 16
  fieldVal g 18 + fieldVal ((p ^^^ g % 32) % 32) 13 + fieldVal stack 10 + fieldVal (q % 16) 6

/-- The pseudo-channel and data sector number of an HBM address. -/
def sectorPlace (a : Nat) : Nat × Nat := ((bitsOf a 17 13) ^^^ (bitsOf a 22 18), 16 * bitsOf a 38 18 + bitsOf a 9 6)

end Sys2Proof.Machine
end

