-- ==== Sys2Proof/Machine/Ras.lean ====
section
/-! DEFINITION. The patrol scrub, the error check and scrub readout, reports of poisoned sectors, votes, and a stalled request (R243,
R246, R247, R251 to R254, R257, R569 to R573, R605). -/

namespace Sys2Proof.Machine

open Sys2Proof

/-! ### The patrol scrub (R251 to R253) -/

/-- Whether a stack's patrol scrub runs. -/
def State.scrubRuns (s : State) (n : Nat) : Bool :=
  (s.hbm n).trained && !(s.hbm n).selfRefresh && decide (s.pwr.shed < 3) && bitOf (s.cfg (blkHbm n + 0x100)) 0
  && (s.frost.phase == .running || s.frost.phase == .cutting) && s.powered .fabric

/-- The next place of the scrub: the slots of a frame, the frames of a pseudo-channel, the pseudo-channels; and whether a pass has
been completed. -/
def Hbm.nextSector (h : Hbm) : Hbm × Bool :=
  if h.scrubSlot < 14 then ({ h with scrubSlot := h.scrubSlot + 1 }, false)
  else if h.scrubFrame < 2097151 then ({ h with scrubSlot := 0, scrubFrame := h.scrubFrame + 1 }, false)
  else if h.scrubP < 31 then ({ h with scrubSlot := 0, scrubFrame := 0, scrubP := h.scrubP + 1 }, false)
  else ({ h with scrubSlot := 0, scrubFrame := 0, scrubP := 0 }, true)

/-- A controller finds a sector uncorrectable (R247): both granules are poisoned, the data unspecified (R610); counted, with its
address. -/
def State.poisonSector (s : State) (n a : Nat) : State :=
  let s := s.openRange a 64
  let s := s.setMem ((s.mem.setPoison (a / 32) true).setPoison (a / 32 + 1) true)
  let s := ((s.errBit n 1).errBit n 2).count (blkHbm n) 0x04 1
  s.setCounter (blkHbm n) 0x0A a

/-- What a sector read with symbol errors on the 68 stored symbols leads to (R245 to R247, R251). -/
def State.scrubSector (s : State) (n p q : Nat) (err : List (Fin 68 × Byte)) : State :=
  let a := sectorAddr n p q
  let data := (s.mem.read a 64).map BitVec.toNat
  let addr := addrSyms n p q
  let stored := data ++ storedCheck addr data (s.mem.isPoison (a / 32)) (s.mem.isPoison (a / 32 + 1))
  let seen := (stored.zipIdx).map (fun b => err.foldl (fun v e => if e.1.val = b.2 then v ^^^ e.2.toNat else v) b.1)
  match rsDecode addr seen with
  | .uncorrectable => (s.poisonSector n a).modHbm n (fun h => { h with unreported := h.unreported.filter (fun b => b != a) ++ [a] })
  | .data bytes fixed lo hi =>
    let s := s.setMem (((s.mem.write a (bytes.map (fun v => BitVec.ofNat 8 v))).setPoison (a / 32) lo).setPoison (a / 32 + 1) hi)
    if lo || hi then s.count (blkHbm n) 0x05 (bnat lo + bnat hi)
    else if fixed = 0 then s
    else (s.errBit n 0).count (blkHbm n) (1 + fixed) 1

/-- The patrol scrub reads its next sector; `inner` is the stack's severity: none, corrected, uncorrected (R243). -/
def execPatrolScrub (stack : Fin 8) (err : List (Fin 68 × Byte)) (inner : Fin 3) (s : State) : Done :=
  .next (if !s.scrubRuns stack then s
    else
      let h := s.hbm stack
      let s := if inner.val = 0 then s else s.count (blkHbm stack) (inner.val - 1) 1
      let s := (s.count (blkHbm stack) 0x06 1).scrubSector stack h.scrubP (15 * h.scrubFrame + h.scrubSlot) err
      let s := s.modHbm stack (fun h => h.nextSector.1)
      if h.nextSector.2 then s.count (blkHbm stack) 0x07 1 else s)

/-- The 1 s readout of a stack's error check and scrub (R243, R254). -/
def execEcsReadout (stack : Fin 8) (count : Nat) (newEntry : Bool) (s : State) : Done :=
  .next (if !(s.hbm stack).trained then s
    else
      let s := s.count (blkHbm stack) 0x09 count
      if newEntry then s.errBit stack 3 else s)

/-! ### Reports of poisoned sectors (R257, R605) -/

def inReserve (a : Nat) : Bool := decide (hbmCtxEnd ≤ a ∧ a < hbmEnd)

/-- The contexts whose completion ring, status block, region table or slot entries a granule holds. -/
def State.structOwners (s : State) (g : Nat) : List Nat :=
  (upto 64).filter (fun c => match s.ctx c with
    | some x => structGranule x g || (inReserve (32 * g) && Config.reserveUse g == c)
    | none => false)

/-- A crash dump of the ring that lies in a poisoned granule carries the poison (R605): place k of the ring is use 128 + k. -/
def State.poisonDump (s : State) (g : Nat) : State :=
  { s with fw := { s.fw with dumps := s.fw.dumps.map (fun (d : Dump) =>
    if inReserve (32 * g) && Config.reserveUse g == 128 + d.num % 16 then { d with poison := true } else d) } }

/-- An uncorrected-fatal memory error (R257, R494): a device warm reset. -/
def State.memoryFatal (s : State) (cause : Nat) : State := match s.sun.recov with
  | none => s.fatal cause 0
  | some r => s.secondFault r (.fatal cause)

/-- Ronon takes the class of a poisoned sector (R605): the abort of every context whose structures it holds, a device warm reset for live
firmware state, or deferred. The trace point names the first of the contexts. -/
def State.sectorReport (s : State) (addr : Nat) : State :=
  let a := addr / 64 * 64
  let gs := [a / 32, a / 32 + 1]
  let note (s : State) (cls ctx : Nat) : State :=
    s.logEntry srcDmp sevError 0x6001 [stackOf a, a % 2 ^ 32, a / 2 ^ 32 + fieldVal cls 16, ctx]
  let live := gs.any (fun g => inReserve (32 * g) && Config.reserveUse g == 64)
  let s := gs.foldl (fun (t : State) g => t.poisonDump g) s
  let all := (gs.flatMap s.structOwners).eraseDups
  let s := note s (if live then 3 else if all.isEmpty then 1 else 2) (all.headD 0xFF)
  let s := all.foldl (fun (t : State) c => t.endContext c stAbortedContext .aborted) s
  if live then s.memoryFatal fcReserve else s

/-- The sector of a report is found poisoned: by the patrol scrub, which has poisoned it and not reported it yet, or else by a demand read,
whose poisoning this report stands for (log entry 10). -/
def State.foundSector (s : State) (addr : Nat) : State :=
  let a := addr / 64 * 64
  let n := stackOf a
  if (s.hbm n).unreported.contains a then s.modHbm n (fun h => { h with unreported := h.unreported.filter (fun b => b != a) })
  else s.poisonSector n a

/-- SRAM_UE of CORE_EVENT or CLUS_EVENT, whichever unit the memory is of (R573; DEDUCED, log entry 70). -/
def State.coreUe (s : State) (k : Nat) : State := s.modCore k (fun c => { c with event := setBits c.event 8 })
def State.clusterUe (s : State) (n : Nat) : State := s.modCluster n (fun k => { k with event := setBits k.event 8 })

/-- An uncorrectable word of a core store, a cluster memory or an accumulator tile poisons its granule, its data lost (R255). -/
def State.poisonWord (s : State) (a : Nat) : State :=
  let t := s.openRange (32 * granule a) 32
  let t := t.setMem (t.mem.setPoison (granule a) true)
  match coreOf a, clusterOf a with
  | some (k, _), _ => t.coreUe k
  | none, some (n, _) => t.clusterUe n
  | none, none => t

/-- An uncorrectable word of a cluster cache's data poisons its granule in that cache, its data lost (R255). -/
def State.poisonCached (s : State) (n a : Nat) : State :=
  let (bs, s) := s.takeBytes 32
  let lose (g : Granule) : Granule := if g.valid then { g with poison := true, data := BitVec.ofNat 256 (natOf bs) } else g
  let loseIn (l : CacheLine) : CacheLine := { l with gran := l.gran.modify (a % 128 / 32) lose }
  (s.modCache n (fun c => { c with lines := modFirst (fun l => l.line == a / 128) loseIn c.lines })).clusterUe n

/-- An uncorrectable word of a stationary-operand buffer (R255): the granule at byte `a` of the tile of a pass is lost for the products of
the operation that runs on the core. -/
def State.loseTile (s : State) (k pass a : Nat) : State :=
  let s := s.coreUe k
  if s.ops.any (fun o => o.core == some k && o.arrayWork) || s.batches.any (fun b => b.core == some k) then
    s.modCore k (fun r => { r with lost := r.lost ++ [(pass, a / 32)] })
  else s

/-- Where an address is a word of on-die memory: a core's window, with its tiles, or a cluster memory. -/
def onDie (a : Nat) : Bool := (coreOf a).isSome || (clusterOf a).isSome

/-- A memory error that no code corrects is found. A controller reports a sector it has poisoned, whichever reader found it (R247,
R605); a word of on-die memory, of a cache or of a stationary-operand buffer poisons its granule there (R255); a tag with one good copy
is repaired from it, and one with none is uncorrected-fatal (R256). -/
def execSectorPoisoned (site : PoisonSite) (s : State) : Done :=
  .next (match site with
    | .memory addr =>
      let a := addr.toNat
      if isHbm a then (if 2 ≤ s.start.stage then (s.foundSector a).sectorReport a else s)
      else if onDie a && decide (1 ≤ s.start.stage) then s.poisonWatch (s.poisonWord a)
      else s
    | .cache n addr => s.poisonCached n addr.toNat
    | .stationary core pass byte => s.loseTile core pass byte
    | .tag n both =>
      if both && decide (1 ≤ s.start.stage) then s.memoryFatal fcTag
      else if both then s
      else s.modCluster n (fun k => { k with event := setBits k.event 16 }))

/-! ### Trellis (R573) -/

/-- A request has been held at a router for more than 1 ms. -/
def execReqStall (s : State) : Done :=
  .next (if s.powered .fabric then { s with regs := { s.regs with trlEvent := setBits s.regs.trlEvent 1 } } else s)

end Sys2Proof.Machine
end

