-- ==== Sys2Proof/Machine/Votes.lean ====
section
/-! DEFINITION. The voted fields (R569 to R572): their copies, their votes, what a change of a vote sets in motion, and what a
write of TOP_RESET_CTL, CFG_SWAP and LINK_CTL does. -/

namespace Sys2Proof.Machine

open Sys2Proof

/-! ### The fields -/

/-- The register a voted field lies in. -/
def fieldOffset : VotedField → Nat
  | .resetCluster => 0x10
  | .resetWarm => 0x10
  | .resetCold => 0x10
  | .mode => 0x2_0000
  | .debugLock => 0x4_0004
  | .flashLock => 0x4_0004
  | .linkEnable n => blkLink n
  | .linkAllowX2 n => blkLink n
  | .clusterMs => 0x6_0004
  | .coreMs => 0x6_0004
  | .prunerMs => 0x6_0008
  | .runnerMs => 0x6_0008
  | .swap => 0x1_0000
  | .pinEn => 0x7_0000

/-- A field's reset value (the *Voted fields* table and the register maps). -/
def fieldReset : VotedField → W16
  | .mode => 2
  | .debugLock => 1
  | .flashLock => 1
  | .linkAllowX2 _ => 1
  | .clusterMs => 0x64
  | .coreMs => 0x32
  | .prunerMs => 0xC8
  | .runnerMs => 0x0A
  | .pinEn => 1
  | _ => 0

/-- A field's width in bits. -/
def fieldWidth : VotedField → Nat
  | .resetCluster => 8
  | .mode => 2
  | .clusterMs => 16
  | .coreMs => 16
  | .prunerMs => 16
  | .runnerMs => 8
  | _ => 1

def Votes.get (v : Votes) : VotedField → Triple
  | .resetCluster => v.resetCluster
  | .resetWarm => v.resetWarm
  | .resetCold => v.resetCold
  | .mode => v.mode
  | .debugLock => v.debugLock
  | .flashLock => v.flashLock
  | .linkEnable n => unitAt (.of 0) v.linkEnable n
  | .linkAllowX2 n => unitAt (.of 1) v.linkAllowX2 n
  | .clusterMs => v.clusterMs
  | .coreMs => v.coreMs
  | .prunerMs => v.prunerMs
  | .runnerMs => v.runnerMs
  | .swap => v.swap
  | .pinEn => v.pinEn

def Votes.put (v : Votes) (t : Triple) : VotedField → Votes
  | .resetCluster => { v with resetCluster := t }
  | .resetWarm => { v with resetWarm := t }
  | .resetCold => { v with resetCold := t }
  | .mode => { v with mode := t }
  | .debugLock => { v with debugLock := t }
  | .flashLock => { v with flashLock := t }
  | .linkEnable n => { v with linkEnable := v.linkEnable.set n t }
  | .linkAllowX2 n => { v with linkAllowX2 := v.linkAllowX2.set n t }
  | .clusterMs => { v with clusterMs := t }
  | .coreMs => { v with coreMs := t }
  | .prunerMs => { v with prunerMs := t }
  | .runnerMs => { v with runnerMs := t }
  | .swap => { v with swap := t }
  | .pinEn => { v with pinEn := t }

/-- Every voted field. -/
def votedFields : List VotedField :=
  [.resetCluster, .resetWarm, .resetCold, .mode, .debugLock, .flashLock, .clusterMs, .coreMs, .prunerMs, .runnerMs, .swap, .pinEn]
  ++ (List.finRange 24).flatMap (fun n => [VotedField.linkEnable n, .linkAllowX2 n])

/-- The value the unit uses (R570); a majority of 0b11 in MODE acts as 0b10 (R571). -/
def State.voted (s : State) (f : VotedField) : W16 :=
  let v := (s.votes.get f).vote (fieldReset f)
  if f = .mode ∧ v = 3 then 2 else v

/-- The three copies all differ. -/
def Triple.lost (t : Triple) : Bool := t.c0 != t.c1 && t.c0 != t.c2 && t.c1 != t.c2

/-- Copies that differ from a value. -/
def Triple.off (t : Triple) (v : W16) : Nat := bnat (t.c0 != v) + bnat (t.c1 != v) + bnat (t.c2 != v)

/-- Vote a field (R571): nothing, a correction, or the reset value. -/
def State.voteField (s : State) (f : VotedField) : State :=
  let t := s.votes.get f
  let v := s.voted f
  if t.off v = 0 then s
  else
    let s : State := { s with votes := s.votes.put (.of v) f }
    let r := s.regs
    if t.lost then
      let s := s.modRegs (fun r => { r with voteStat := BitVec.ofNat 32 (fieldVal 3 30 + fieldOffset f), topEvent := setBits r.topEvent 8 })
      (s.count blkTop 0x05 1).logEntry srcAon sevError 0x6040 [fieldOffset f, 0, 0, 0]
    else
      { s with regs := { r with
        fixCount := BitVec.ofNat 32 (satAt (2 ^ 32 - 1) (r.fixCount.toNat + t.off v))
        topEvent := setBits r.topEvent 4
        voteStat := if r.voteStat.getLsbD 30 then r.voteStat else BitVec.ofNat 32 (fieldVal 1 31 + fieldOffset f) } }

/-- Vote the fields of a register, or every field. -/
def State.voteAll (s : State) (p : VotedField → Bool) : State := (votedFields.filter p).foldl (fun (t : State) f => t.voteField f) s

/-! ### What the units do -/

/-- Newly set bits of TOP_RESET_CTL start their resets (R572): a device reset takes over a running recovery; the reset of a cluster
that another unit's recovery does not cover waits for its end. A parked device takes none (R508). -/
def State.runResets (s : State) (bits : Nat) : State :=
  if s.sun.parked then s
  else if bitOf bits 9 then s.deviceReset true whyCold false
  else if bitOf bits 8 then s.deviceReset false whyWarm false
  else (List.finRange 8).foldl (fun (t : State) (n : Fin 8) =>
    if !bitOf bits n then t
    else match t.sun.recov with
      | none => t.startReset (.cluster n) false false whyFatal
      | some r => if covers r.unit (.cluster n) then t
                  else { t with sun := { t.sun with queue := t.sun.queue ++ [FaultSite.unit (.cluster n)] } }) s

/-- LINK_CTL.ENABLE as a Runner meets it (R315, R462). -/
def State.linkSwitch (s : State) (n : Fin 24) (on : Bool) : State :=
  let f := HeldFunction.runner n
  if on then
    (if s.pwr.shutting.contains f then s.holdEnable f else if (s.link n).state = .disabled then s.linkDetect n else s)
  else if s.pwr.shutting.contains f then s.cancelEnable f
  else if (s.link n).state = .disabled then s
  else (s.modLink n (fun l => { l with state := .shutdown })).beginShut f

/-- A unit acts at once on a changed vote (R570): `old` is the value it used. -/
def State.unitActs (s : State) (f : VotedField) (old : W16) : State :=
  let v := s.voted f
  if v = old then s
  else match f with
    | .resetCluster => s.runResets (v &&& ~~~old).toNat
    | .resetWarm => if v = 0 then s else s.runResets 0x100
    | .resetCold => if v = 0 then s else s.runResets 0x200
    | .mode => s.pwrDo id
    | .swap => if v = 0 then (s.copyNow).drain else s
    | .linkEnable n => s.pwrDo (fun t => t.linkSwitch n (v != 0))
    | _ => s

/-- A write to a voted field: all three copies at once (R570), and the unit acts. -/
def State.setVoted (s : State) (f : VotedField) (v : Nat) : State :=
  ({ s with votes := s.votes.put (.of (BitVec.ofNat 16 v)) f } : State).unitActs f (s.voted f)

/-- A keyed write of TOP_RESET_CTL (R572): the largest request only; smaller ones are cleared with it. -/
def State.askReset (s : State) (v : Nat) : State :=
  if s.sun.parked then s
  else
    let old := s.resetCtl
    let all := old ||| (v % 1024)
    let new := if bitOf all 9 then 0x200 else if bitOf all 8 then 0x100 else all % 256
    let t (k : Nat) : Triple := .of (BitVec.ofNat 16 k)
    ({ s with votes := { s.votes with
      resetCold := t (bitsOf new 9 9)
      resetWarm := t (bitsOf new 8 8)
      resetCluster := t (new % 256) } } : State).runResets (new &&& (1023 ^^^ old))

/-- A write of LINK_CTL: ALLOW_X2, RETRAIN, ENABLE (R315 to R317). RETRAIN takes the link DOWN; R328 starts it again. -/
def State.linkCtlWrite (s : State) (n : Fin 24) (v : Nat) : State :=
  let s := s.setVoted (.linkAllowX2 n) (bitsOf v 1 1)
  let st := (s.link n).state
  let s := if bitOf v 2 && !(st.isDown || st == .shutdown) then s.linkDown n .down dcRequested else s
  s.setVoted (.linkEnable n) (bitsOf v 0 0)

/-! ### Meanings -/

/-- At least every 1 ms every voted field is voted (R570). -/
def execVoteScrub (s : State) : Done := .next (s.voteAll (fun _ => true))

/-- An upset changes copies of a voted field; the unit at once acts on the vote or the reset value (R570). -/
def execVoteUpset (f : VotedField) (flip0 flip1 flip2 : W16) (s : State) : Done :=
  .next (let m : W16 := BitVec.ofNat 16 (2 ^ fieldWidth f - 1)
    let t := s.votes.get f
    let t : Triple := { c0 := t.c0 ^^^ (flip0 &&& m), c1 := t.c1 ^^^ (flip1 &&& m), c2 := t.c2 ^^^ (flip2 &&& m) }
    ({ s with votes := s.votes.put t f } : State).unitActs f (s.voted f))

/-! ### The configuration swap (R436 to R438) -/

/-- Whether this is a step boundary at which a pending swap takes place (R437). In a RUNNING group: every copied command has issued,
and no item of the next epoch has been copied; CFG_SWAP_EPOCH names no later epoch. -/
def State.swapBoundary (s : State) : Bool :=
  if s.group.state ≠ .running then true
  else
    let started := match s.group.plans with
      | p :: _ => decide (0 < p.item ∨ 0 < p.entry)
      | [] => false
    let issued := s.ctxs.all (fun (x : Option Context) => match x with
      | some x => !x.planned || x.sqHead == x.sqTail
      | none => true)
    let next := match s.group.plans with
      | p :: _ => p.epoch.toNat
      | [] => if s.group.epochs.isEmpty then s.group.epochRecv.toNat else s.group.epochRecv.toNat + 1
    !started && issued && decide (s.regs.swapEpoch.toNat ≤ next)

/-- The swap: the active set takes the shadow set, which keeps its values; the generation rises (R436). -/
def execCfgSwapPerform (s : State) : Done :=
  .next (if s.voted .swap = 0 ∨ s.frost.phase ≠ .running ∨ !s.swapBoundary then s
    else
      let s : State := { s with
        votes := { s.votes with swap := .of 0 }
        regs := { s.regs with active := s.regs.shadow, gen := s.regs.gen + 1, dirty := false } }
      (s.copyNow).drain)

end Sys2Proof.Machine
end

