-- ==== Sys2Proof/Machine/Registers.lean ====
section
/-! DEFINITION. The register window (R12, R556 to R562, R570, R573), the SMBus sideband (R588): who may read and write what, what an
access does. A row that names one register is a write of that register. -/

namespace Sys2Proof.Machine

open Sys2Proof

/-! ### Rights (R556) -/

/-- A halted device that is neither parked nor tripped: TOP_RESET_CTL is open to BAR4 and the sideband. -/
def State.haltedOpen (s : State) : Bool := s.start.halted && !s.sun.parked && !s.therm.tripped

/-- JTAG has the rights of firmware while DEBUG_LOCK is 0, else those of the sideband. -/
def State.rightsOf (s : State) (o : Origin) : Origin :=
  if o = .jtag then (if s.voted .debugLock = 0 then .firmware else .sideband) else o

/-- Whether an offset is a wide mailbox register, and of which block. -/
def wideAt (off : Nat) : Option Nat :=
  let base := blockBase off
  if hasWide base && wideReg (off - base) then some base else none

/-- The blocks whose wide mailbox the sideband reaches. -/
def sideWide (base : Nat) : Bool := [blkTop, blkPwr, blkSun, blkFrost, blkSec].contains base

/-- Whether an offset is a word of the mailbox buffers, which are no registers. -/
def isBuffer (off : Nat) : Bool := decide (0x5_1000 ≤ off ∧ off < 0x5_3000)

def State.mayRead (s : State) (o : Origin) (off : Nat) (i : RegInfo) : Bool :=
  match s.rightsOf o with
  | .sideband =>
    (match wideAt off with
     | some b => sideWide b
     | none => i.dom == .aon && !isBuffer off)
  | _ => true

def State.mayWrite (s : State) (o : Origin) (off : Nat) : Bool :=
  match s.rightsOf o with
  | .secp => true
  | .firmware => decide (off ≠ 0x4_0004)
  | .bar4 =>
    if off = 0x10 then s.haltedOpen else !(blockBase off == blkSec) && !(isLinkBlk (blockBase off) && off == blockBase off)
  | _ =>
    (match wideAt off with
     | some b => sideWide b
     | none => off == 0x6_0000 || off == 0x2_0004 || (off == 0x10 && s.haltedOpen))

/-! ### Writes -/

/-- PWR_STATE_CTL.REQ (R446, R460). -/
def State.stateCtl (s : State) (req : Nat) : State :=
  if req = 1 then s.pwrDo (fun t => t.askState false false)
  else if req = 2 then s.pwrDo (fun t => t.askState true false)
  else if req = 3 then (if s.therm.tripPin then s.tripAgain else s.askActive)
  else s

/-- SUN_CTL.UNPARK through BAR4 or the sideband ends a park with a device cold reset and clears the escalation history (R508). -/
def State.unparkBy (s : State) (o : Origin) : State :=
  if s.sun.parked ∧ (o = .bar4 ∨ o = .sideband) then
    ({ s with sun := { s.sun with parked := false, escT := [] } } : State).deviceReset true whyUnpark false
  else s

/-- CFG_SWAP.SWAP (R436, R438): a request or a withdrawal; ignored before Stage 1. -/
def State.swapWrite (s : State) (v : Nat) : State := if s.start.stage < 1 then s else s.setVoted .swap (bitsOf v 0 0)

/-- FROST_CTL: the plain fields, then START, then THAW (R509, R515). -/
def State.frostWrite (s : State) (v : Nat) : State :=
  let s := s.putPlain 0x7_0000 v
  let s := if bitOf v 0 then s.frostStart hdReg else s
  if bitOf v 1 then s.frostThawReg else s

/-- A word of the request buffer; the response buffer is read-only. -/
def State.bufferWrite (s : State) (off v : Nat) : State :=
  if off < 0x5_2000 then
    { s with mbx := { s.mbx with
      req := ((upto 4).zip (bytesOf 4 v)).foldl (fun (c : List Host.Cell) e => sparsePut 0 c (off - 0x5_1000 + e.1) e.2) s.mbx.req } }
  else s

/-- A permitted write of a register whose domain is on (the *Register access codes* table). -/
def State.writeReg (s : State) (o : Origin) (off v : Nat) (i : RegInfo) : State :=
  match wideAt off with
  | some b => s.wideWrite o b (off - b) v
  | none =>
    if off = 0x10 then (if bitsOf v 31 24 = 0x5A then s.askReset v else s.accessError o aeOrigin off)
    else if off = 0x1_0000 then s.swapWrite v
    else if off = 0x1_0008 then ((s.putPlain off v).copyNow).drain
    else if off = 0x2_0000 then s.pwrDo (fun t => t.putPlain off v)
    else if off = 0x2_0004 then s.stateCtl (v % 4)
    else if off = 0x2_0008 ∨ off = 0x3_0004 then s.pwrDo (fun t => t.clearBits off v)
    else if off = 0x5_0000 then (if bitOf v 0 then s.go else s)
    else if isBuffer off then s.bufferWrite off v
    else if off = 0x6_0000 then (if bitOf v 0 then s.unparkBy o else s)
    else if off = 0x7_0000 then s.frostWrite v
    else if off = 0x8_0100 ∨ off = 0x8_0104 ∨ off = 0x8_0108 then s.perfWrite off v
    else if off = 0xB_0010 then (if s.pcie.bar2On then s.accessError o aeOrigin off else s.putPlain off v)
    else if h : isLinkBlk (blockBase off) = true ∧ off = blockBase off then
      s.linkCtlWrite ⟨(off - 0x300_0000) / 0x1_0000 % 24, Nat.mod_lt _ (by decide)⟩ v
    else if i.sh ≠ 0 then s.putShadow off v i.sh
    else if i.w1c ≠ 0 then s.clearBits off v
    else s.putPlain off v

/-- A 4-byte write at an aligned offset (R556, R560, R561). -/
def State.write32 (s : State) (o : Origin) (off v : Nat) : State :=
  match regInfo off with
  | none => s.accessError o aeReserved off
  | some i =>
    if !s.mayWrite o off then s.accessError o aeOrigin off
    else if !s.powered i.dom then s.accessError o aeOff off
    else s.writeReg o off v i

/-- A write of a size (R557). -/
def State.regWrite (s : State) (o : Origin) (off size : Nat) (v : W64) : State :=
  if size = 4 ∧ off % 4 = 0 then s.write32 o off (v.toNat % 2 ^ 32)
  else if size = 8 ∧ off % 8 = 0 then (s.write32 o off (v.toNat % 2 ^ 32)).write32 o (off + 4) (v.toNat / 2 ^ 32)
  else s.accessError o aeSize off

/-! ### Reads -/

/-- What came of a read: the value, and the SMBus status of it (R588). -/
def State.read32 (s : State) (o : Origin) (off : Nat) : Nat × Nat × State :=
  match regInfo off with
  | none => (0, 3, s.accessError o aeReserved off)
  | some i =>
    if !s.mayRead o off i then (0, 1, s.accessError o aeOrigin off)
    else if !s.powered i.dom then (0xFFFF_FFFF, 2, s.accessError o aeOff off)
    else
      let v := match wideAt off with
        | some b => s.wideRead o b (off - b)
        | none => s.regVal off
      (v, 0, s.voteAll (fun f => fieldOffset f == off))

/-- A read of a size (R557): a narrow one returns its bytes of the register. -/
def State.regRead (s : State) (o : Origin) (off size : Nat) : State :=
  if size = 8 ∧ off % 8 = 0 then
    let (lo, _, s) := s.read32 o off
    let (hi, _, s) := s.read32 o (off + 4)
    s.emit (.regData (BitVec.ofNat 64 (lo + fieldVal hi 32)))
  else if (size = 1 ∨ size = 2 ∨ size = 4) ∧ off % size = 0 then
    let (v, _, s) := s.read32 o (off / 4 * 4)
    s.emit (.regData (BitVec.ofNat 64 (v / 2 ^ (8 * (off % 4)) % 2 ^ (8 * size))))
  else (s.accessError o aeSize off).emit (.regData 0)

/-! ### Rows for any register -/

def execRegisterWrite (o : Origin) (off : BitVec 26) (size : Nat) (v : W64) (s : State) : Done := .next (s.regWrite o off.toNat size v)
def execRegisterRead (o : Origin) (off : BitVec 26) (size : Nat) (s : State) : Done := .next (s.regRead o off.toNat size)

/-! ### The sideband (R588) -/

/-- Command 0x01: a transaction whose PEC fails is discarded. -/
def execSmbusWrite (off v : W32) (pecOk : Bool) (s : State) : Done :=
  .next (if !pecOk then s.emit .smbusNack
    else if off.toNat % 4 ≠ 0 then s.accessError .sideband aeSize off.toNat
    else s.write32 .sideband off.toNat v.toNat)

/-- Command 0x02: a status byte and the value. -/
def execSmbusRead (off : W32) (pecOk : Bool) (s : State) : Done :=
  .next (if !pecOk then s.emit .smbusNack
    else if off.toNat % 4 ≠ 0 then (s.accessError .sideband aeSize off.toNat).emit (.smbusData 3 0)
    else
      let (v, st, s) := s.read32 .sideband off.toNat
      s.emit (.smbusData (BitVec.ofNat 8 st) (BitVec.ofNat 32 v)))

/-- SB_ALERT_N is asserted. -/
def State.sbAlert (s : State) : Bool := s.therm.tripped || s.start.halted || s.sun.parked || s.regs.topEvent.getLsbD 3

/-- The Alert Response Address is answered with this device's address 0x58 + SB_ADDR while the alert is asserted. -/
def execSmbusAlertResponse (s : State) : Done :=
  .next (if s.sbAlert then s.emit (.alertAddr (BitVec.ofNat 7 (0x58 + s.start.sbAddr.toNat))) else s)

/-! ### Rows for one register -/

/-- TOP_RESET_CTL with a KEY (R556, R572). -/
def execTopResetCold (o : Origin) (key : Byte) (s : State) : Done := .next (s.write32 o 0x10 (fieldVal key.toNat 24 + 0x200))
def execTopResetWarm (o : Origin) (key : Byte) (s : State) : Done := .next (s.write32 o 0x10 (fieldVal key.toNat 24 + 0x100))
def execTopResetCluster (o : Origin) (key : Byte) (clusters : BitVec 8) (s : State) : Done :=
  .next (s.write32 o 0x10 (fieldVal key.toNat 24 + clusters.toNat))

/-- CFG_SWAP.SWAP (R436). -/
def execCfgSwapRequest (o : Origin) (s : State) : Done := .next (s.write32 o 0x1_0000 1)
def execCfgSwapWithdraw (o : Origin) (s : State) : Done := .next (s.write32 o 0x1_0000 0)

/-- PWR_MODE (R439, R440). -/
def execPwrModeWrite (o : Origin) (v : W32) (s : State) : Done := .next (s.write32 o 0x2_0000 v.toNat)

/-- PWR_STATE_CTL.REQ (R446, R460). -/
def execDozeRequest (o : Origin) (s : State) : Done := .next (s.write32 o 0x2_0004 1)
def execRestRequest (o : Origin) (s : State) : Done := .next (s.write32 o 0x2_0004 2)
def execActiveRequest (o : Origin) (s : State) : Done := .next (s.write32 o 0x2_0004 3)
def execTripRestart (o : Origin) (s : State) : Done := .next (if s.therm.tripPin then s.write32 o 0x2_0004 3 else s)

/-- LINK_CTL (R315 to R317, R462): the other field is written as it reads. -/
def execLinkEnable (o : Origin) (n : Fin 24) (s : State) : Done := .next (s.write32 o (blkLink n) (fieldVal (bnat (s.allowX2 n)) 1 + 1))
def execLinkDisable (o : Origin) (n : Fin 24) (s : State) : Done := .next (s.write32 o (blkLink n) (fieldVal (bnat (s.allowX2 n)) 1))
def execLinkRetrainRequest (o : Origin) (n : Fin 24) (s : State) : Done := .next (s.write32 o (blkLink n) (4 + s.linkCtl n))

/-- FROST_CTL (R509, R515): PIN_EN and STATE_WRITE are written as they read. -/
def execFrostStart (o : Origin) (s : State) : Done := .next (s.write32 o 0x7_0000 (s.regVal 0x7_0000 + 1))
def execFrostThaw (o : Origin) (s : State) : Done := .next (s.write32 o 0x7_0000 (s.regVal 0x7_0000 + 2))

/-- SUN_CTL.UNPARK (R508). -/
def execUnpark (o : Origin) (s : State) : Done := .next (s.write32 o 0x6_0000 1)

/-- MBX_CTL.GO (R472): the host's also through BAR0. -/
def execMbxGo (o : Origin) (s : State) : Done := .next (s.write32 o 0x5_0000 1)

/-- The block of a wide mailbox. -/
def wideBase : WideBlock → Nat
  | .top => blkTop
  | .pwr => blkPwr
  | .sec => blkSec
  | .sun => blkSun
  | .frost => blkFrost
  | .perf => blkPerf
  | .pcie => blkPcie
  | .hbm n => blkHbm n
  | .link n => blkLink n

/-- WIDE_CTL (R566, R567). -/
def execWideSnap (o : Origin) (b : WideBlock) (s : State) : Done := .next (s.write32 o (wideBase b + 0xF04) 1)
def execWideDone (o : Origin) (b : WideBlock) (s : State) : Done := .next (s.write32 o (wideBase b + 0xF04) 2)

/-- The window offset of a PERF filter register. -/
def perfOffset : PerfReg → Nat
  | .filter => 0x8_0100
  | .tag => 0x8_0104
  | .tagOp => 0x8_0108

/-- PERF_FILTER, PERF_TAG, PERF_TAG_OP (R540). -/
def execPerfFilterWrite (o : Origin) (r : PerfReg) (v : W32) (s : State) : Done := .next (s.write32 o (perfOffset r) v.toNat)

/-- PCIE_BAR2_BASE (R573). -/
def execPcieBar2BaseWrite (o : Origin) (v : W32) (s : State) : Done := .next (s.write32 o 0xB_0010 v.toNat)

end Sys2Proof.Machine
end

