-- ==== Sys2Proof/Machine/Tick.lean ====
section
/-! DEFINITION. One nanosecond in which no command acts (R49, R54, R538, R539): the time base counts, and so does BUSY_NS. -/

namespace Sys2Proof.Machine

open Sys2Proof

/-- Cores with a command running. -/
def State.busyCores (s : State) : List Nat := (upto 128).filter (fun k => s.ops.any (fun o => o.core == some k))

/-- Add to BUSY_NS of a scope and index. -/
def State.busyPut (s : State) (scope index n : Nat) : State :=
  { s with perf := perfBump s.perf (perfKey scope index 0) n }

/-- `n` ns pass for BUSY_NS (R538): of the device, clusters, cores, contexts (summed over cores), the COMMAND and TAGGED sets; not while
a Frost holds the device (R539). -/
def State.busyTick (s : State) (n : Nat) : State :=
  if s.frost.phase = .frozen ∨ s.ops.isEmpty ∨ n = 0 then s
  else
    let ks := s.busyCores
    let on (k : Nat) (o : Op) : Bool := o.core == some k
    let t := if ks.isEmpty then s else s.busyPut 0 0 n
    let t := (upto 8).foldl (fun (t : State) c =>
      let mine := ks.filter (fun k => k / 16 == c)
      let t := if mine.isEmpty then t else t.busyPut 1 c n
      if mine.any (fun k => s.ops.any (fun o => on k o && s.tagPass o.who)) then t.busyPut 5 c n else t) t
    ks.foldl (fun (t : State) k =>
      let t := t.busyPut 2 k n
      let cs := ((s.ops.filter (on k)).map (fun o => o.ctx)).eraseDups
      let t := cs.foldl (fun (t : State) c => t.busyPut 3 c n) t
      if s.ops.any (fun o => on k o && (s.core k).tagCtx == some o.ctx && (s.core k).tagIdx == o.idx) then t.busyPut 4 k n else t) t

/-- One nanosecond: the time base stands still while PWR_GOOD is low; none past its last value. -/
def State.tick (s : State) : Option State :=
  if !s.start.good then some s
  else match s.time.tick with
    | none => none
    | some t => some { (s.busyTick (t.now.toNat - s.time.now.toNat)) with time := t }

end Sys2Proof.Machine
end

