-- ==== Sys2Proof/Machine/Dispatch.lean ====
section
/-! DEFINITION. What each command does: one arm per constructor, each a direct call of its meaning. -/

namespace Sys2Proof.Machine

def exec (i : Instr) (s : State) : Host.Outcome State Fault Refusal :=
  match i with
  | .nop c => Sys2Proof.Machine.execNop c s
  | .fence c => Sys2Proof.Machine.execFence c s
  | .flushRange c => Sys2Proof.Machine.execFlushRange c s
  | .invalRange c => Sys2Proof.Machine.execInvalRange c s
  | .signal c => Sys2Proof.Machine.execSignal c s
  | .wait c => Sys2Proof.Machine.execWait c s
  | .remoteFence c => Sys2Proof.Machine.execRemoteFence c s
  | .frost c => Sys2Proof.Machine.execFrost c s
  | .matmul c pick => Sys2Proof.Machine.execMatmul c pick s
  | .matmulDd c pick => Sys2Proof.Machine.execMatmulDd c pick s
  | .accLoad c pick => Sys2Proof.Machine.execAccLoad c pick s
  | .accStore c pick => Sys2Proof.Machine.execAccStore c pick s
  | .accRelease c => Sys2Proof.Machine.execAccRelease c s
  | .vec c pick => Sys2Proof.Machine.execVec c pick s
  | .dma c pick => Sys2Proof.Machine.execDma c pick s
  | .slice c pick => Sys2Proof.Machine.execSlice c pick s
  | .trugSlotSet c => Sys2Proof.Machine.execTrugSlotSet c s
  | .trugPost c => Sys2Proof.Machine.execTrugPost c s
  | .allReduce c => Sys2Proof.Machine.execAllReduce c s
  | .reduceScatter c => Sys2Proof.Machine.execReduceScatter c s
  | .allGather c => Sys2Proof.Machine.execAllGather c s
  | .broadcast c => Sys2Proof.Machine.execBroadcast c s
  | .pruneUpdate c => Sys2Proof.Machine.execPruneUpdate c s
  | .sweep c => Sys2Proof.Machine.execSweep c s
  | .rake c cluster => Sys2Proof.Machine.execRake c cluster s
  | .issueResume c => Sys2Proof.Machine.execIssueResume c s
  | .freeCoreGrant core => Sys2Proof.Machine.execFreeCoreGrant core s
  | .arrayOpDone c idx stalls => Sys2Proof.Machine.execArrayOpDone c idx stalls s
  | .epilogueDone c idx => Sys2Proof.Machine.execEpilogueDone c idx s
  | .vectorDone c idx => Sys2Proof.Machine.execVectorDone c idx s
  | .dmaDone c idx => Sys2Proof.Machine.execDmaDone c idx s
  | .hostReadCompletion c idx data ep => Sys2Proof.Machine.execHostReadCompletion c idx data ep s
  | .prunerShareDone stack => Sys2Proof.Machine.execPrunerShareDone stack s
  | .normExchangeDone c idx parts => Sys2Proof.Machine.execNormExchangeDone c idx parts s
  | .rakeDone c idx => Sys2Proof.Machine.execRakeDone c idx s
  | .digestDone c idx => Sys2Proof.Machine.execDigestDone c idx s
  | .trugDeadline cluster pick => Sys2Proof.Machine.execTrugDeadline cluster pick s
  | .trugPassDone pass => Sys2Proof.Machine.execTrugPassDone pass s
  | .sqTail c v => Sys2Proof.Machine.execSqTail c v s
  | .cqHead c v => Sys2Proof.Machine.execCqHead c v s
  | .streamGrant c stream v => Sys2Proof.Machine.execStreamGrant c stream v s
  | .bar2Read off len => Sys2Proof.Machine.execBar2Read off len s
  | .bar2Write off data ep => Sys2Proof.Machine.execBar2Write off data ep s
  | .functionLevelReset => Sys2Proof.Machine.execFunctionLevelReset s
  | .perstAssert => Sys2Proof.Machine.execPerstAssert s
  | .perstDeassert => Sys2Proof.Machine.execPerstDeassert s
  | .pcieLinkDown => Sys2Proof.Machine.execPcieLinkDown s
  | .pcieLinkUp rate width => Sys2Proof.Machine.execPcieLinkUp rate width s
  | .getStatus seq => Sys2Proof.Machine.execGetStatus seq s
  | .logRead seq index => Sys2Proof.Machine.execLogRead seq index s
  | .recoverWrite seq off data => Sys2Proof.Machine.execRecoverWrite seq off data s
  | .hello seq major minor => Sys2Proof.Machine.execHello seq major minor s
  | .bar2Priv seq on => Sys2Proof.Machine.execBar2Priv seq on s
  | .ctxCreate seq rec => Sys2Proof.Machine.execCtxCreate seq rec s
  | .ctxDestroy seq c => Sys2Proof.Machine.execCtxDestroy seq c s
  | .ctxAbort seq c => Sys2Proof.Machine.execCtxAbort seq c s
  | .regionSet seq c index entry timeout => Sys2Proof.Machine.execRegionSet seq c index entry timeout s
  | .regionApply c => Sys2Proof.Machine.execRegionApply c s
  | .regionSetTimeout c => Sys2Proof.Machine.execRegionSetTimeout c s
  | .jobLoad seq addr len => Sys2Proof.Machine.execJobLoad seq addr len s
  | .graftStage seq addr len => Sys2Proof.Machine.execGraftStage seq addr len s
  | .graftWriteDone => Sys2Proof.Machine.execGraftWriteDone s
  | .graftActivate seq => Sys2Proof.Machine.execGraftActivate seq s
  | .graftStatus seq => Sys2Proof.Machine.execGraftStatus seq s
  | .dumpRead seq dump host len => Sys2Proof.Machine.execDumpRead seq dump host len s
  | .attest seq nonce form host len => Sys2Proof.Machine.execAttest seq nonce form host len s
  | .topResetCold o key => Sys2Proof.Machine.execTopResetCold o key s
  | .topResetWarm o key => Sys2Proof.Machine.execTopResetWarm o key s
  | .topResetCluster o key clusters => Sys2Proof.Machine.execTopResetCluster o key clusters s
  | .cfgSwapRequest o => Sys2Proof.Machine.execCfgSwapRequest o s
  | .cfgSwapWithdraw o => Sys2Proof.Machine.execCfgSwapWithdraw o s
  | .cfgSwapPerform => Sys2Proof.Machine.execCfgSwapPerform s
  | .pwrModeWrite o v => Sys2Proof.Machine.execPwrModeWrite o v s
  | .dozeRequest o => Sys2Proof.Machine.execDozeRequest o s
  | .restRequest o => Sys2Proof.Machine.execRestRequest o s
  | .activeRequest o => Sys2Proof.Machine.execActiveRequest o s
  | .tripRestart o => Sys2Proof.Machine.execTripRestart o s
  | .linkEnable o n => Sys2Proof.Machine.execLinkEnable o n s
  | .linkDisable o n => Sys2Proof.Machine.execLinkDisable o n s
  | .linkRetrainRequest o n => Sys2Proof.Machine.execLinkRetrainRequest o n s
  | .frostStart o => Sys2Proof.Machine.execFrostStart o s
  | .frostThaw o => Sys2Proof.Machine.execFrostThaw o s
  | .unpark o => Sys2Proof.Machine.execUnpark o s
  | .wideSnap o b => Sys2Proof.Machine.execWideSnap o b s
  | .wideDone o b => Sys2Proof.Machine.execWideDone o b s
  | .perfFilterWrite o r v => Sys2Proof.Machine.execPerfFilterWrite o r v s
  | .pcieBar2BaseWrite o v => Sys2Proof.Machine.execPcieBar2BaseWrite o v s
  | .registerWrite o off size v => Sys2Proof.Machine.execRegisterWrite o off size v s
  | .smbusWrite off v pecOk => Sys2Proof.Machine.execSmbusWrite off v pecOk s
  | .smbusRead off pecOk => Sys2Proof.Machine.execSmbusRead off pecOk s
  | .smbusAlertResponse => Sys2Proof.Machine.execSmbusAlertResponse s
  | .extest => Sys2Proof.Machine.execExtest s
  | .extestPulse => Sys2Proof.Machine.execExtestPulse s
  | .extestTrain => Sys2Proof.Machine.execExtestTrain s
  | .idcode => Sys2Proof.Machine.execIdcode s
  | .testLogicReset => Sys2Proof.Machine.execTestLogicReset s
  | .pwrGoodRise sbAddr => Sys2Proof.Machine.execPwrGoodRise sbAddr s
  | .pwrGoodFall lowNs => Sys2Proof.Machine.execPwrGoodFall lowNs s
  | .powerUpStep => Sys2Proof.Machine.execPowerUpStep s
  | .regulatorAck r => Sys2Proof.Machine.execRegulatorAck r s
  | .regulatorRetry r => Sys2Proof.Machine.execRegulatorRetry r s
  | .pmbAlert => Sys2Proof.Machine.execPmbAlert s
  | .stage1Reached => Sys2Proof.Machine.execStage1Reached s
  | .stage2Reached trainFailures selftestFails => Sys2Proof.Machine.execStage2Reached trainFailures selftestFails s
  | .stage3Alone => Sys2Proof.Machine.execStage3Alone s
  | .coreSelftestFail core => Sys2Proof.Machine.execCoreSelftestFail core s
  | .timerefLost => Sys2Proof.Machine.execTimerefLost s
  | .timerefReturn => Sys2Proof.Machine.execTimerefReturn s
  | .hbmrefLost => Sys2Proof.Machine.execHbmrefLost s
  | .runrefLost p => Sys2Proof.Machine.execRunrefLost p s
  | .runrefReturn p => Sys2Proof.Machine.execRunrefReturn p s
  | .thermalSample readings hbmTemps => Sys2Proof.Machine.execThermalSample readings hbmTemps s
  | .thermalLimitLower => Sys2Proof.Machine.execThermalLimitLower s
  | .thermalLimitRaise => Sys2Proof.Machine.execThermalLimitRaise s
  | .thermalTrip => Sys2Proof.Machine.execThermalTrip s
  | .shedStageEnter stage => Sys2Proof.Machine.execShedStageEnter stage s
  | .undervoltageWarning r asserted => Sys2Proof.Machine.execUndervoltageWarning r asserted s
  | .shedStageClear margin => Sys2Proof.Machine.execShedStageClear margin s
  | .undervoltageFatal cause => Sys2Proof.Machine.execUndervoltageFatal cause s
  | .wake src => Sys2Proof.Machine.execWake src s
  | .dozeEntryStep => Sys2Proof.Machine.execDozeEntryStep s
  | .drainAbandon => Sys2Proof.Machine.execDrainAbandon s
  | .dozeExitStep => Sys2Proof.Machine.execDozeExitStep s
  | .restEntryStep => Sys2Proof.Machine.execRestEntryStep s
  | .shutdownComplete f => Sys2Proof.Machine.execShutdownComplete f s
  | .coreHang core => Sys2Proof.Machine.execCoreHang core s
  | .clusterHang n => Sys2Proof.Machine.execClusterHang n s
  | .runnerHang n => Sys2Proof.Machine.execRunnerHang n s
  | .prunerHang n => Sys2Proof.Machine.execPrunerHang n s
  | .processorSilent p dump => Sys2Proof.Machine.execProcessorSilent p dump s
  | .burstGap c idx => Sys2Proof.Machine.execBurstGap c idx s
  | .sundialSelfCheck mismatch => Sys2Proof.Machine.execSundialSelfCheck mismatch s
  | .coreReset core => Sys2Proof.Machine.execCoreReset core s
  | .clusterReset n => Sys2Proof.Machine.execClusterReset n s
  | .portReset n => Sys2Proof.Machine.execPortReset n s
  | .prunerReset n => Sys2Proof.Machine.execPrunerReset n s
  | .deviceWarmReset fatalCause => Sys2Proof.Machine.execDeviceWarmReset fatalCause s
  | .deviceColdReset fatalCause => Sys2Proof.Machine.execDeviceColdReset fatalCause s
  | .resetComplete u selftestFails => Sys2Proof.Machine.execResetComplete u selftestFails s
  | .resetWindowExpiry u => Sys2Proof.Machine.execResetWindowExpiry u s
  | .secondFault site => Sys2Proof.Machine.execSecondFault site s
  | .suspectReplayEnd n how => Sys2Proof.Machine.execSuspectReplayEnd n how s
  | .processorCrash p cause dump => Sys2Proof.Machine.execProcessorCrash p cause dump s
  | .processorRestart p digestOk => Sys2Proof.Machine.execProcessorRestart p digestOk s
  | .frostIn => Sys2Proof.Machine.execFrostIn s
  | .frostCutSettled => Sys2Proof.Machine.execFrostCutSettled s
  | .frostThawDone => Sys2Proof.Machine.execFrostThawDone s
  | .syncInterval => Sys2Proof.Machine.execSyncInterval s
  | .holdoverEntry => Sys2Proof.Machine.execHoldoverEntry s
  | .syncParentReturn => Sys2Proof.Machine.execSyncParentReturn s
  | .receiveFlit n flit => Sys2Proof.Machine.execReceiveFlit n flit s
  | .controlFlit n ctl => Sys2Proof.Machine.execControlFlit n ctl s
  | .replayTimeout n => Sys2Proof.Machine.execReplayTimeout n s
  | .ackTimer n => Sys2Proof.Machine.execAckTimer n s
  | .retrainDone n lanes => Sys2Proof.Machine.execRetrainDone n lanes s
  | .signalDetected n => Sys2Proof.Machine.execSignalDetected n s
  | .trainDone n lanes => Sys2Proof.Machine.execTrainDone n lanes s
  | .alignDone n => Sys2Proof.Machine.execAlignDone n s
  | .laneFail n lane => Sys2Proof.Machine.execLaneFail n lane s
  | .lossOfSignal n => Sys2Proof.Machine.execLossOfSignal n s
  | .resetNotice n => Sys2Proof.Machine.execResetNotice n s
  | .linkDownRestart n => Sys2Proof.Machine.execLinkDownRestart n s
  | .wakeFrame n => Sys2Proof.Machine.execWakeFrame n s
  | .forwardHoldTimeout n => Sys2Proof.Machine.execForwardHoldTimeout n s
  | .write n m => Sys2Proof.Machine.execWrite n m s
  | .writeAck n m => Sys2Proof.Machine.execWriteAck n m s
  | .readReq n m => Sys2Proof.Machine.execReadReq n m s
  | .readResp n m => Sys2Proof.Machine.execReadResp n m s
  | .remoteSignal n m => Sys2Proof.Machine.execRemoteSignal n m s
  | .signalAck n m => Sys2Proof.Machine.execSignalAck n m s
  | .grantReq n m => Sys2Proof.Machine.execGrantReq n m s
  | .grantResp n m => Sys2Proof.Machine.execGrantResp n m s
  | .grantRelease n m => Sys2Proof.Machine.execGrantRelease n m s
  | .routeErr n m => Sys2Proof.Machine.execRouteErr n m s
  | .grantTimeout c idx => Sys2Proof.Machine.execGrantTimeout c idx s
  | .coll n m => Sys2Proof.Machine.execColl n m s
  | .collCheck n m => Sys2Proof.Machine.execCollCheck n m s
  | .collectiveTimeout c idx => Sys2Proof.Machine.execCollectiveTimeout c idx s
  | .join n m => Sys2Proof.Machine.execJoin n m s
  | .joinRetry => Sys2Proof.Machine.execJoinRetry s
  | .admitMsg n m => Sys2Proof.Machine.execAdmit n m s
  | .refuse n m => Sys2Proof.Machine.execRefuse n m s
  | .formed n m => Sys2Proof.Machine.execFormed n m s
  | .job n m => Sys2Proof.Machine.execJob n m s
  | .plan n m => Sys2Proof.Machine.execPlan n m s
  | .planCopyResume => Sys2Proof.Machine.execPlanCopyResume s
  | .planRecordRead c => Sys2Proof.Machine.execPlanRecordRead c s
  | .heartbeat n m => Sys2Proof.Machine.execHeartbeat n m s
  | .heartbeatInterval => Sys2Proof.Machine.execHeartbeatInterval s
  | .mgrBeat n m => Sys2Proof.Machine.execMgrBeat n m s
  | .report n m => Sys2Proof.Machine.execReport n m s
  | .withdraw n m => Sys2Proof.Machine.execWithdraw n m s
  | .discard n m => Sys2Proof.Machine.execDiscard n m s
  | .thaw n m => Sys2Proof.Machine.execThaw n m s
  | .commit n m => Sys2Proof.Machine.execCommit n m s
  | .takeover n m => Sys2Proof.Machine.execTakeover n m s
  | .memberLost chip => Sys2Proof.Machine.execMemberLost chip s
  | .deputyTakeover => Sys2Proof.Machine.execDeputyTakeover s
  | .managerLost => Sys2Proof.Machine.execManagerLost s
  | .readyTimeout chip => Sys2Proof.Machine.execReadyTimeout chip s
  | .challenge n m => Sys2Proof.Machine.execChallenge n m s
  | .response n m => Sys2Proof.Machine.execResponse n m s
  | .verdict n m => Sys2Proof.Machine.execVerdict n m s
  | .verdictRepeat n => Sys2Proof.Machine.execVerdictRepeat n s
  | .graftVerifyDone => Sys2Proof.Machine.execGraftVerifyDone s
  | .graftHandover => Sys2Proof.Machine.execGraftHandover s
  | .graftReadyTimeout => Sys2Proof.Machine.execGraftReadyTimeout s
  | .graftTrialEnd => Sys2Proof.Machine.execGraftTrialEnd s
  | .graftDeferEnd => Sys2Proof.Machine.execGraftDeferEnd s
  | .patrolScrub stack err inner => Sys2Proof.Machine.execPatrolScrub stack err inner s
  | .ecsReadout stack count newEntry => Sys2Proof.Machine.execEcsReadout stack count newEntry s
  | .sectorPoisoned addr => Sys2Proof.Machine.execSectorPoisoned addr s
  | .waitPoll c idx => Sys2Proof.Machine.execWaitPoll c idx s
  | .waitTimeout c idx => Sys2Proof.Machine.execWaitTimeout c idx s
  | .voteScrub => Sys2Proof.Machine.execVoteScrub s
  | .voteUpset f flip0 flip1 flip2 => Sys2Proof.Machine.execVoteUpset f flip0 flip1 flip2 s
  | .configurationRequest bar2 => Sys2Proof.Machine.execConfigurationRequest bar2 s
  | .mbxGo o => Sys2Proof.Machine.execMbxGo o s
  | .unknownOpcode c => Sys2Proof.Machine.execUnknownOpcode c s
  | .poisonedSubmissionEntry c => Sys2Proof.Machine.execPoisonedSubmissionEntry c s
  | .registerRead o off size => Sys2Proof.Machine.execRegisterRead o off size s
  | .rangeOperationDone c idx => Sys2Proof.Machine.execRangeOperationDone c idx s
  | .accTransferDone c idx => Sys2Proof.Machine.execAccTransferDone c idx s
  | .graftHandoverResume => Sys2Proof.Machine.execGraftHandoverResume s
  | .reqStall => Sys2Proof.Machine.execReqStall s

end Sys2Proof.Machine
end

