-- ==== Sys2Proof/Machine/Step.lean ====
section
/-! DEFINITION. One step of the block: the command at the front of the queue, or one nanosecond without a command. -/

namespace Sys2Proof.Machine

/-- A step on an empty queue: one nanosecond passes (R49). That time passes there, and only there, is a DESIGN CHOICE (log entry 2);
past the last count of 64 bits the machine stops, since R50 lets the count never decrease. -/
def idle (s : State) : Host.Outcome State Fault Refusal :=
  match s.tick with
  | some t => .next t
  | none => .fault .timeBaseEnd

/-- One step: the first waiting command acts on the state with the rest of the queue. -/
def step (s : State) : Host.Outcome State Fault Refusal :=
  match s.pending with
  | [] => idle s
  | c :: rest => exec c { s with pending := rest }

/-- The state with the command a table word spells put at the front of its queue; no word spells one. -/
def State.withFetchWord (s : State) (nbits w : Nat) : State :=
  match decodeTableWord nbits w with
  | none => s
  | some c => { s with pending := c :: s.pending }

end Sys2Proof.Machine
end

