-- ==== Sys2Proof/Safety.lean ====
section
/-! DEFINITION. The words that statements about runs use: a step that does not stop, an entry that a command stream takes, what
the completion of a command leaves behind. -/

namespace Sys2Proof.Machine

open Sys2Proof

/-- A state from which the next step answers a next state. -/
def canStep (s : State) : Prop := ∃ t, step s = .next t

/-- Context `c` (now `x`) takes its next entry `d` as an entry of opcode `opc`: its issue is open, SQ_TAIL covers the entry, no
granule of it is poisoned, its completion entries are free, its DESC_VER is 1 (R200, R201, R219). -/
def State.takes (s : State) (c opc : Nat) (x : Context) (d : Block) : Prop :=
  s.nextEntry c = some (x, d) ∧ dOpcode d = opc ∧ s.entryBad x x.sqHead = [] ∧ (s.newOp c x d).slots ≤ s.cqFree c x ∧ dVer d = 1

/-- No command of context `c` waits for earlier ones (R284). -/
def State.noneWaits (s : State) (c : Nat) : Prop := ∀ o ∈ s.ops, o.ctx = c → o.phase ≠ .waitEarlier

/-- No command of context `c` is open, the completions that its control processor holds among them. -/
def State.streamIdle (s : State) (c : Nat) : Prop := s.openOps c = []

/-- The places of context `c` in its rings: SQ_HEAD and CQ_TAIL. -/
def State.ringsAt (s : State) (c : Nat) : Option (W32 × W32) := (s.ctx c).map (fun x => (x.sqHead, x.cqTail))

/-- The context status block does not lie over the completion entry at CQ_TAIL. -/
def Context.apart (x : Context) : Prop :=
  x.csb.toNat + 24 ≤ cqAddr x x.cqTail ∨ cqAddr x x.cqTail + 32 ≤ x.csb.toNat

/-- `n` bytes at `a` meet neither the context status block nor the completion entry at CQ_TAIL. -/
def Context.clearOf (x : Context) (a n : Nat) : Prop :=
  (a + n ≤ x.csb.toNat ∨ x.csb.toNat + 24 ≤ a) ∧ (a + n ≤ cqAddr x x.cqTail ∨ cqAddr x x.cqTail + 32 ≤ a)

/-- From `s` to `t`, the entry of context `c` (then `x`) that stood next has been completed as `o`: one record at CQ_TAIL (R222),
both rings one entry on, no command of the stream left open by it, no byte of memory changed but the record and the context status
block. -/
def State.completesNext (s t : State) (c : Nat) (x : Context) (o : Op) : Prop :=
  t.mem.read (cqAddr x x.cqTail) 32 = recordBytes x o s.time.now false ∧
  t.ringsAt c = some (x.sqHead + 1, x.cqTail + 1) ∧ t.ops = s.ops.filter (fun q => !q.is c x.sqHead) ∧
  ∀ b, x.clearOf b 1 → t.mem.byte b = s.mem.byte b

/-- Command `idx` of context `c` has left the open commands. -/
def State.gone (t : State) (c : Nat) (idx : W32) : Prop := t.op? c idx = none

/-- Command `idx` of context `c` has completed, or waits only for its digest to be formed (R204). -/
def State.doneWith (t : State) (c : Nat) (idx : W32) : Prop := ∀ q, t.op? c idx = some q → q.phase = .digest

/-- From `s` to `t`, the entry of context `c` (then `x`) that stood next has been issued as `o`: SQ_HEAD is past its `places`
entries, and it is the last of the open commands. -/
def State.issues (s t : State) (c places : Nat) (x : Context) (o : Op) : Prop :=
  t.ringsAt c = some (x.sqHead + BitVec.ofNat 32 places, x.cqTail) ∧ t.ops = s.ops ++ [o]

/-- The mailbox takes a request: none is in progress, Stage 1 is reached, no shed stage 7, the DMP runs (R420, R472, R484). -/
def State.mailboxReady (s : State) : Prop :=
  s.mbx.busy = false ∧ 1 ≤ s.start.stage ∧ s.pwr.shed < 7 ∧ (s.proc 2).runs = true

/-- The mailbox has answered a request with a status and a reason: DONE is set, BUSY clear (R472). -/
def State.answered (t : State) (st : Byte) (reason : Nat) : Prop :=
  t.mbx.done = true ∧ t.mbx.busy = false ∧ t.mbx.status = st ∧ t.mbx.reason = BitVec.ofNat 16 reason

/-- No trust-ratio exchange is in progress, and none waits to begin (R337, R373). -/
def State.exchangesIdle (s : State) : Prop := ∀ p ∈ s.pruneQ, p.phase ≠ .exchange ∧ (p.phase = .norm → p.done.all id = false)

/-- A context has ended: it is neither ACTIVE nor FROZEN (R232). -/
def State.ended (t : State) (c : Nat) : Prop :=
  ∀ y, t.ctx c = some y → y.status ≠ .active ∧ y.status ≠ .frozen

/-- The device has the units the manual gives it: 8 clusters with their caches, 128 cores, 8 HBM stacks, 24 ports, 64 contexts, 11
processors, 2 link clocks. -/
def State.sized (s : State) : Prop :=
  s.clusters.length = 8 ∧ s.caches.length = 8 ∧ s.cores.length = 128 ∧ s.hbms.length = 8 ∧ s.links.length = 24 ∧ s.ports.length = 24 ∧
  s.ctxs.length = 64 ∧ s.fw.procs.length = 11 ∧ s.votes.linkEnable.length = 24 ∧ s.votes.linkAllowX2.length = 24 ∧ s.runref.length = 2

/-- Units as `sized` says, and the tables of counters and of wide mailbox banks in their canonical form. -/
def State.shaped (s : State) : Prop :=
  s.sized ∧ sparseWf 0 0 s.wide = true ∧ sparseWf 0 0 s.perf = true ∧ sparseWf noBank 0 s.banks = true

/-- An origin may write the register at an offset, and its domain is powered (R556, R560). -/
def State.admitsWrite (s : State) (o : Origin) (off : Nat) : Prop :=
  s.mayWrite o off = true ∧ ∃ i, regInfo off = some i ∧ s.powered i.dom = true

/-- From `s` to `t` nothing has happened but the record of a failed access (R562). -/
def State.accessFailed (s t : State) (o : Origin) (cause off : Nat) : Prop :=
  t = { s with wide := t.wide, regs := { s.regs with accessErr := t.regs.accessErr, topEvent := s.regs.topEvent ||| 2 } } ∧
  t.counter blkTop 0x04 = satAt max64 (s.counter blkTop 0x04 + 1) ∧
  t.regs.accessErr = if s.regs.accessErr.getLsbD 31 then s.regs.accessErr ||| 0x40000000
    else BitVec.ofNat 32 (2 ^ 31 + cause * 2 ^ 28 + originCode o * 2 ^ 26 + off % 2 ^ 26)

/-- A recovery of a unit begins at the present time (R500). -/
def State.recovers (s t : State) (u : ResetUnit) : Prop := t.sun.recov = some { unit := u, at_ := s.nowN, esc := false }

/-- The device reset that a warm reset is: cold until Stage 2 has been reached once (R432). -/
def State.warmUnit (s : State) : ResetUnit := if s.start.trainedOnce then .warm else .cold

/-- Everything outside the always-on domain is as at reset: Stage 0, no context, no command open (R501). -/
def State.stopped (t : State) : Prop := t.start.stage = 0 ∧ t.ops = [] ∧ ∀ c, t.ctx c = none

/-- A port has handed a message on: it is sent, or waits in the port's queue. -/
def State.sent (t : State) (p : Nat) (m : Msg) : Prop := Output.message p m ∈ t.out ∨ m ∈ (t.link p).sendQ

/-- A whole message can arrive on a port: flits are heard, none is open. -/
def State.opens (s : State) (n : Nat) : Prop := (s.link n).state.hears = true ∧ (s.link n).rx = none

/-- A message that is not of the control complex arrives for this device and acts at once (R312, R314, R512). -/
def State.takesMsg (s : State) (n : Nat) (m : Msg) : Prop :=
  s.opens n ∧ (s.link n).admitted = true ∧ m.dst = s.group.self ∧ s.frost.phase = .running

/-- A GROUP message arrives for this device's DMP and acts at once: the link is authenticated, the DMP runs with nothing waiting for
it, the message is of the present TERM, or of one that is not older where this device is not the manager (R389, R403, R533). -/
def State.takesGroup (s : State) (n : Nat) (m : Msg) : Prop :=
  s.opens n ∧ (s.link n).authOk = true ∧ m.dst = s.group.self ∧ (s.proc 2).runs = true ∧ s.group.selfQ = [] ∧
  s.group.cfg.isSome = true ∧ termNewer s.group.term.toNat (Msg.term m) = false ∧
  (s.group.role = .manager → Msg.term m = s.group.term.toNat)

/-- This device is neither its group's manager nor its deputy. -/
def State.follows (s : State) : Prop :=
  s.group.role ≠ .manager ∧ s.group.manager ≠ s.group.self ∧ s.group.deputy ≠ some s.group.self

/-- Events of links, clocks, power, the mailbox, the graft and the test ports, and reads, that no stream sees. -/
def quietEvent : Instr → Bool
  | .ackTimer _ | .alignDone _ | .attest _ _ _ _ _ | .bar2Priv _ _ | .bar2Read _ _ | .configurationRequest _ | .dozeExitStep => true
  | .drainAbandon | .dumpRead _ _ _ _ | .ecsReadout _ _ _ | .extest | .extestPulse | .extestTrain | .forwardHoldTimeout _ => true
  | .frostIn | .getStatus _ | .graftActivate _ | .graftDeferEnd | .graftHandover | .graftHandoverResume | .graftReadyTimeout => true
  | .graftStage _ _ _ | .graftStatus _ | .graftTrialEnd | .graftVerifyDone | .graftWriteDone | .hello _ _ _ | .holdoverEntry => true
  | .idcode | .linkDownRestart _ | .logRead _ _ | .managerLost | .perstDeassert | .pmbAlert | .powerUpStep | .pwrGoodRise _ => true
  | .recoverWrite _ _ _ | .registerRead _ _ _ | .regulatorAck _ | .replayTimeout _ | .reqStall | .runrefReturn _ => true
  | .signalDetected _ | .smbusAlertResponse | .smbusRead _ _ | .stage3Alone | .syncInterval => true
  | .syncParentReturn | .testLogicReset | .thermalLimitLower | .thermalLimitRaise | .thermalSample _ _ | .timerefLost => true
  | .timerefReturn | .voteScrub | .wake _ | .wakeFrame _ => true
  | _ => false

/-- Commands of the streams, events of their engines, and link events that no control register sees. -/
def streamCommand : Instr → Bool
  | .accLoad _ _ | .accRelease _ | .accStore _ _ | .accTransferDone _ _ | .ackTimer _ | .alignDone _ | .allGather _ => true
  | .allReduce _ | .arrayOpDone _ _ _ | .broadcast _ | .collectiveTimeout _ _ | .digestDone _ _ | .dma _ _ | .dmaDone _ _ => true
  | .ecsReadout _ _ _ | .epilogueDone _ _ | .fence _ | .flushRange _ | .forwardHoldTimeout _ | .freeCoreGrant _ | .frost _ => true
  | .frostIn | .grantTimeout _ _ | .hostReadCompletion _ _ _ _ | .invalRange _ | .issueResume _ | .linkDownRestart _ => true
  | .matmul _ _ | .matmulDd _ _ | .nop _ | .normExchangeDone _ _ _ | .patrolScrub _ _ _ | .pmbAlert | .poisonedSubmissionEntry _ => true
  | .pruneUpdate _ | .prunerShareDone _ | .rake _ _ | .rakeDone _ _ | .rangeOperationDone _ _ | .reduceScatter _ => true
  | .remoteFence _ | .replayTimeout _ | .reqStall | .signal _ | .signalDetected _ | .slice _ _ | .smbusAlertResponse => true
  | .trugDeadline _ _ | .trugPassDone _ | .trugPost _ | .trugSlotSet _ | .unknownOpcode _ | .vec _ _ | .vectorDone _ _ => true
  | .wait _ | .waitPoll _ _ | .waitTimeout _ _ => true
  | _ => false

end Sys2Proof.Machine
end

