-- ==== Sys2Proof/Certificates/Slice0/Obligations.lean ====
section
/-! DEFINITION. The statements about this model, one `def Obligations.<Name> : Prop` each; the docstring names the rule of the manual
that a statement formalises. -/

open Sys2Proof Sys2Proof.Machine

/-! ### The step, the queue, time -/

/-- A step on a queue that is not empty is the meaning of its first command, on the state with the rest of the queue. -/
def Obligations.StepRunsTheFrontCommand : Prop :=
  ∀ (s : State) (c : Instr), Machine.step { s with pending := c :: s.pending } = exec c s

/-- On an empty queue a step is one nanosecond in which no command acts, the model's choice; while PWR_GOOD is low, nothing
changes. Choices of the model that it rests on: log entry 2. -/
def Obligations.EmptyQueuePassesOneNanosecond : Prop :=
  ∀ s : State, s.pending = [] →
    (s.start.good = false → Machine.step s = .next s) ∧
    (s.start.good = true → s.time.slew = 0 → s.time.rate = 0 → s.time.rateT = 0 → s.time.now.toNat + 1 < 2 ^ 64 →
      ∃ p k, Machine.step s = .next { s with perf := p, time := { s.time with now := s.time.now + 1, slewT := k } } ∧
        (s.ops = [] → p = s.perf))

/-- R50: while PWR_GOOD stands the time base never decreases; it changes only by counting and slewing (a step on an empty queue)
and by a forward step, which TOP_TIME_STAT.STEPPED records (R55). Choices of the model that it rests on: log entry 2. -/
def Obligations.TimeBaseNeverDecreases : Prop :=
  ∀ s t : State, Machine.step s = .next t → s.start.good = true → t.start.good = true →
    s.time.now ≤ t.time.now ∧ (t.time.now ≠ s.time.now → s.pending = [] ∨ t.time.stepped = true)

/-- Device memory keeps its canonical form in every step: addresses strictly rising, nothing listed at the value that an
unlisted address reads as, poisoned granules strictly rising. Choices of the model that it rests on: log entry 4. -/
def Obligations.StepKeepsMemoryCanonical : Prop :=
  ∀ s t : State, s.mem.wf = true → Machine.step s = .next t → t.mem.wf = true

/-- A command acts on everything but the queue of waiting commands, and answers a next state: none is refused. -/
def Obligations.CommandsLeaveTheQueue : Prop :=
  ∀ (c : Instr) (s : State), ∃ t, exec c s = .next t ∧ t.pending = s.pending

/-! ### Command streams (R194 to R233, R284 to R286) -/

/-- NOP completes with OK, changing no byte of memory but its record and the status block (R206); ACC_RELEASE completes with OK
and marks its space released (R143); an entry with an opcode that is not in the table completes with BAD_OPCODE, DETAIL_0 the
offset of OPCODE (R206, R227); each takes one completion entry. Choices of the model that it rests on: log entry 14. -/
def Obligations.EntriesThatCompleteAtIssue : Prop :=
  ∀ (s : State) (c : Fin 64) (x : Context) (d : Block), s.mem.wf = true → s.noneWaits c → x.apart →
    (s.takes c 0x00 x d → ∃ t, exec (.nop c) s = .next t ∧ s.completesNext t c x (s.newOp c x d)) ∧
    (s.takes c 0x14 x d → dSpace d ≤ 127 →
      ∃ t, exec (.accRelease c) s = .next t ∧ s.completesNext t c x (s.newOp c x d) ∧
        ∀ y, t.ctx c = some y → ∀ p ∈ y.spaces, p.num = dSpace d → p.release = true) ∧
    (∀ opc, knownOpcode opc = false → s.takes c opc x d →
      ∃ t, exec (.unknownOpcode c) s = .next t ∧ s.completesNext t c x { s.newOp c x d with status := stBadOpcode })

/-- An entry in a poisoned granule is taken without its fields being read: it completes with POISON_CONSUMED, POISON_SEEN set
and every field it would have copied 0 but OPCODE 0xFF (R221). Choices of the model that it rests on: log entry 14. -/
def Obligations.PoisonedEntryIsConsumed : Prop :=
  ∀ (s : State) (c : Fin 64) (x : Context) (d : Block), s.mem.wf = true → s.noneWaits c → x.apart →
    s.nextEntry c = some (x, d) → s.entryBad x x.sqHead ≠ [] → 1 ≤ s.cqFree c x →
    ∃ t, exec (.poisonedSubmissionEntry c) s = .next t ∧
      s.completesNext t c x { s.newOp c x poisonedEntry with status := stPoison, rflags := rfPoison }

/-- R284: while an earlier command of the stream is open, FENCE, FLUSH_RANGE, INVAL_RANGE, SIGNAL and REMOTE_FENCE are issued
and wait for it: the last of the open commands, not yet acting. -/
def Obligations.OrderingCommandsWait : Prop :=
  ∀ (s : State) (c : Fin 64) (x : Context) (d : Block) (e : Op), s.noneWaits c → e ∈ s.ops → e.ctx = c →
    let w (opc : Nat) (check : State → Context → Op → Verdict) (i : Instr) : Prop :=
      ∀ o, s.takes c opc x d → check s x (s.newOp c x d) = .go o →
        ∃ t, exec i s = .next t ∧ t.ops = s.ops ++ [o] ∧ o.phase = .waitEarlier ∧ t.ringsAt c = some (x.sqHead + 1, x.cqTail)
    w 0x01 checkWaiting (.fence c) ∧ w 0x02 checkRange (.flushRange c) ∧ w 0x03 checkRange (.invalRange c) ∧
    w 0x04 checkSignal (.signal c) ∧ w 0x06 checkWaiting (.remoteFence c)

/-- R284, R285, R286: with no earlier command open, FENCE completes; REMOTE_FENCE completes when no remote write of the stream
is unacknowledged; FLUSH_RANGE and INVAL_RANGE of a range begin; a SIGNAL that writes a local word completes with the value in
the word; a WAIT whose word satisfies its condition completes at issue, and one whose word does not goes on reading. Choices of
the model that it rests on: log entry 14. -/
def Obligations.OrderingCommandsAct : Prop :=
  ∀ (s : State) (c : Fin 64) (x : Context) (d : Block), s.mem.wf = true → s.streamIdle c → x.apart →
    (s.takes c 0x01 x d → ∃ t, exec (.fence c) s = .next t ∧ s.completesNext t c x (s.newOp c x d)) ∧
    (s.takes c 0x06 x d → s.unacked c = false → ∃ t, exec (.remoteFence c) s = .next t ∧ s.completesNext t c x (s.newOp c x d)) ∧
    (∀ i opc, (i, opc) ∈ [(Instr.flushRange c, 0x02), (Instr.invalRange c, 0x03)] → s.takes c opc x d →
      checkRange s x (s.newOp c x d) = .go { s.newOp c x d with phase := .waitEarlier } → 0 < fld d 24 8 →
      ∃ t o, exec i s = .next t ∧ t.ops = s.ops ++ [o] ∧ o.is c x.sqHead = true ∧ o.phase = .acting) ∧
    (s.takes c 0x04 x d → checkSignal s x (s.newOp c x d) = .go { s.newOp c x d with phase := .waitEarlier } →
      bitOf (fld d 16 8) 63 = false → fld d 32 1 = 0 → x.clearOf (fld d 16 8) 8 →
      ∃ t, exec (.signal c) s = .next t ∧ t.gone c x.sqHead ∧ t.ringsAt c = some (x.sqHead + 1, x.cqTail + 1) ∧
        t.mem.read (fld d 16 8) 8 = bytesOf 8 (fld d 24 8) ∧
        ∀ b, x.clearOf b 1 → (b < fld d 16 8 ∨ fld d 16 8 + 8 ≤ b) → t.mem.byte b = s.mem.byte b) ∧
    (s.takes c 0x05 x d → checkWait s x (s.newOp c x d) = .go { s.newOp c x d with phase := .acting } → x.clearOf (fld d 16 8) 8 →
      ∃ t, exec (.wait c) s = .next t ∧ t.ringsAt c = some (x.sqHead + 1,
          x.cqTail + if (s.poisonAt (fld d 16 8) 8).isEmpty && waitMet d (natOf (s.bytesAt (fld d 16 8) 8)) then 1 else 0))

/-! ### Commands of the arrays, vector units and transfer engines -/

/-- R200: an entry for the arrays, the vector unit or SLICE that is taken and passes its checks is issued: SQ_HEAD passes it, it
is the last of the open commands, its core's CORE_RUN names it. Choices of the model that it rests on: log entries 15, 30. -/
def Obligations.CoreCommandsIssue : Prop :=
  ∀ (s : State) (c : Fin 64) (pick : Fin 128) (x : Context) (d : Block) (o : Op) (k : Nat), s.noneWaits c →
    o.core = some k → k < s.cores.length →
    let w (opc : Nat) (check : Nat → State → Context → Op → Verdict) (i : Instr) : Prop :=
      s.takes c opc x d → check pick s x (s.newOp c x d) = .go o →
        ∃ t, exec i s = .next t ∧ s.issues t c 1 x o ∧ (t.core k).run = x.sqHead
    w 0x10 checkMatmul (.matmul c pick) ∧ w 0x11 checkMatmul (.matmulDd c pick) ∧ w 0x12 checkAcc (.accLoad c pick) ∧
    w 0x13 checkAcc (.accStore c pick) ∧ w 0x18 checkVec (.vec c pick) ∧ w 0x21 checkSlice (.slice c pick)

/-- R143: a VEC that names an unbound accumulator space binds it to the core it runs on. Choices of the model that it rests on:
log entry 30. -/
def Obligations.FirstCommandBindsItsSpace : Prop :=
  ∀ (s : State) (c : Fin 64) (pick : Fin 128) (x : Context) (d : Block) (o : Op) (k : Nat), s.noneWaits c → o.core = some k →
    k < s.cores.length → x.space? (dSpace d) = none → s.takes c 0x18 x d → checkVec pick s x (s.newOp c x d) = .go o →
    ∃ t y, exec (.vec c pick) s = .next t ∧ (t.core k).bound = some (c.val, dSpace d) ∧ t.ctx c = some y ∧
      y.space? (dSpace d) = some { num := dSpace d, core := k, release := false, groups := [] }

/-- R182, R270: a DMA between sides of this device that is taken and passes its checks is issued and runs on its core. Choices
of the model that it rests on: log entry 30. -/
def Obligations.LocalDmaIssues : Prop :=
  ∀ (s : State) (c : Fin 64) (pick : Fin 128) (x : Context) (d : Block) (o : Op) (k : Nat), s.noneWaits c → s.takes c 0x20 x d →
    checkDma pick s x (s.newOp c x d) = .go o → o.core = some k → k < s.cores.length → s.remoteSides o = [] →
    (dmaSrc o).kind ≠ 4 → s.op? c x.sqHead = none →
    ∃ t q, exec (.dma c pick) s = .next t ∧ s.issues t c 1 x q ∧ q.phase = .running ∧ q.desc = o.desc ∧ q.core = some k ∧
      (t.core k).run = x.sqHead

/-- R101, R152: an array operation whose turn it is finishes its array work; with END it goes on to its epilogue (unless its
context has ended on poison that the operation wrote), else it is done. -/
def Obligations.ArrayWorkFinishes : Prop :=
  ∀ (s : State) (c : Fin 64) (idx : W32) (st : Stalls) (o : Op),
    s.running? c idx (fun o => (dOpcode o.desc == 0x10 || dOpcode o.desc == 0x11) && o.phase == .running) = some o →
    s.arrayTurn o = true →
    ∃ t, exec (.arrayOpDone c idx st) s = .next t ∧
      (mfEnd o.desc = false → t.doneWith c idx) ∧
      (mfEnd o.desc = true → (t.ctx c).map (fun y => y.status) = (s.ctx c).map (fun y => y.status) →
        ∃ q, t.op? c idx = some q ∧ q.phase = .epilogue)

/-- The engines' ends: an epilogue, a vector command, a transfer whose source has arrived, a SLICE, a RAKE on a Rake that is not
paused, an ACC_LOAD whose turn it is, a FLUSH_RANGE or INVAL_RANGE, each completes its command, or leaves it with its digest to
be formed; a transfer whose remote writes wait completes once they are sent (R288); a digest that is formed completes it.
Choices of the model that it rests on: log entries 30, 35. -/
def Obligations.EnginesCompleteTheirCommands : Prop :=
  ∀ (s : State) (c : Fin 64) (idx : W32) (o : Op),
    (s.running? c idx (fun o => o.phase == .epilogue) = some o →
      ∃ t, exec (.epilogueDone c idx) s = .next t ∧ t.doneWith c idx) ∧
    (s.running? c idx (fun o => dOpcode o.desc == 0x18 && o.phase == .running) = some o →
      s.engineUp o = true → (vBind o.desc = true → s.bindReady o (vBindIdx o.desc)
        [(storeAddr (o.core.getD 0) (vX o.desc), fmtBytes (vFmtX o.desc) (vCount o.desc))] = true) →
      ∃ t, exec (.vectorDone c idx) s = .next t ∧ t.doneWith c idx) ∧
    (s.running? c idx (fun o => (dOpcode o.desc == 0x20 || dOpcode o.desc == 0x21) && o.phase == .running) = some o →
      s.engineUp o = true → (dOpcode o.desc = 0x21 ∨ s.localSource o = true ∨ o.bytes.length = (dmaSrc o).bytes) →
      ∃ t, exec (.dmaDone c idx) s = .next t ∧
        ∀ q, t.op? c idx = some q → q.phase = .digest ∨ q.phase = .sending ∧ t.unsent q = true) ∧
    (s.running? c idx (fun o => dOpcode o.desc == 0x20 && o.phase == .sending) = some o → s.engineUp o = true → s.unsent o = false →
      ∃ t, exec (.dmaDone c idx) s = .next t ∧ t.doneWith c idx) ∧
    (s.running? c idx (fun o => dOpcode o.desc == 0x3C && o.phase == .running) = some o →
      s.rakePaused o.cluster = false → (s.cluster o.cluster).resetting = false →
      ∃ t, exec (.rakeDone c idx) s = .next t ∧ t.doneWith c idx) ∧
    (∀ x, s.running? c idx (fun o => (dOpcode o.desc == 0x12 && o.phase == .running)
        || (dOpcode o.desc == 0x13 && (o.phase == .running || o.phase == .held))) = some o → s.ctx c = some x →
      (if dOpcode o.desc = 0x12 ∨ o.phase ≠ .held then s.accBlocked o = false else s.storeFree x o = true) →
      ∃ t, exec (.accTransferDone c idx) s = .next t ∧ t.doneWith c idx) ∧
    (∀ x, s.running? c idx (fun o => (dOpcode o.desc == 0x02 || dOpcode o.desc == 0x03) && o.phase == .acting) = some o →
      s.ctx c = some x → ∃ t, exec (.rangeOperationDone c idx) s = .next t ∧ t.gone c idx) ∧
    (s.running? c idx (fun o => o.phase == .digest) = some o → s.digPaused (s.digestCluster o) = false →
      ∃ t, exec (.digestDone c idx) s = .next t ∧ t.gone c idx)

/-- R286: each further read of a WAIT either satisfies it, and it completes, or leaves it reading; R215: when its timeout has
expired it completes. Choices of the model that it rests on: log entry 29. -/
def Obligations.WaitsEnd : Prop :=
  ∀ (s : State) (c : Fin 64) (idx : W32) (o : Op),
    s.running? c idx (fun o => dOpcode o.desc == 0x05 && o.phase == .acting) = some o →
    ((s.poisonAt (fld o.desc 16 8) 8 = [] → waitMet o.desc (natOf (s.bytesAt (fld o.desc 16 8) 8)) = true →
        ∃ t, exec (.waitPoll c idx) s = .next t ∧ t.gone c idx) ∧
     (s.poisonAt (fld o.desc 16 8) 8 = [] → waitMet o.desc (natOf (s.bytesAt (fld o.desc 16 8) 8)) = false →
        ∃ t q, exec (.waitPoll c idx) s = .next t ∧ t.op? c idx = some q ∧ q.phase = .acting ∧
          q.d0 = BitVec.ofNat 32 (natOf (s.bytesAt (fld o.desc 16 8) 8))) ∧
     (∀ w, waitDeadline o = some w → w ≤ s.nowN → ∃ t, exec (.waitTimeout c idx) s = .next t ∧ t.gone c idx))

/-- R186, R190: bytes that the host returns for a transfer follow those it has, in order, and the transfer goes on (unless its
context ends because its own rings became poisoned). -/
def Obligations.HostDataArrivesInOrder : Prop :=
  ∀ (s : State) (c : Fin 64) (idx : W32) (data : List Byte) (o : Op) (x : Context),
    s.op? c idx = some o → s.ctx c = some x → hostTransfer o = true → s.engineUp o = true → s.pcie.l0 = true → data ≠ [] →
    o.bytes.length + data.length ≤ o.asked → o.parts = [] → s.frost.phase = .running → s.dmaHole o = none →
    ∃ t, exec (.hostReadCompletion c idx data false) s = .next t ∧
      ∀ y, t.ctx c = some y → y.status = x.status → ∃ q, t.op? c idx = some q ∧ q.bytes = o.bytes ++ data

/-! ### Rake, Trug, collectives, Pruners -/

/-- R551: a RAKE that passes its checks is issued, to the Rake that its CSP chose where that cluster is in the set and up.
Choices of the model that it rests on: log entry 30. -/
def Obligations.RakeIssues : Prop :=
  ∀ (s : State) (c : Fin 64) (n : Fin 8) (x : Context) (d : Block) (o : Op), s.noneWaits c → s.takes c 0x3C x d →
    checkRake n s x (s.newOp c x d) = .go o →
    ∃ t, exec (.rake c n) s = .next t ∧ s.issues t c 1 x o ∧
      (x.clusters.getLsbD n.val = true → s.clusterUp n = true → o.cluster = n.val)

/-- R121, R207: a TRUG_SLOT_SET takes two entries, writes the second into its slot, and completes once. Choices of the model
that it rests on: log entry 3. -/
def Obligations.SlotSetWritesItsSlot : Prop :=
  ∀ (s : State) (c : Fin 64) (x : Context) (d : Block) (o : Op), s.noneWaits c → s.takes c 0x28 x d →
    2 ≤ (x.sqTail - x.sqHead).toNat → s.entryBad x (x.sqHead + 1) = [] →
    checkSlotSet (s.entryAt x (x.sqHead + 1)) s x (s.newOp c x d) = .go o →
    ∃ t, exec (.trugSlotSet c) s = .next t ∧ t.ringsAt c = some (x.sqHead + 2, x.cqTail + 1) ∧ t.gone c x.sqHead ∧
      t.slotOf c (dSlot d) = some { ctx := c, desc := s.entryAt x (x.sqHead + 1) }

/-- R124, R126 to R128: an accepted TRUG_POST is in a batch, with its deadline; a deadline that comes issues its batch as the
next pass; a pass that ends leaves none of its number. Choices of the model that it rests on: log entries 29, 30. -/
def Obligations.TrugPostsBatchAndPass : Prop :=
  ∀ (s : State) (c : Fin 64) (x : Context) (d : Block) (o : Op),
    (s.noneWaits c → s.takes c 0x29 x d → checkPost s x (s.newOp c x d) = .go o →
      ∃ t, exec (.trugPost c) s = .next t ∧ s.issues t c 1 x o ∧
        ∃ b ∈ t.batches, ∃ r ∈ b.reqs, r.ctx = c ∧ r.idx = x.sqHead ∧ r.slot = dSlot o.desc ∧ r.deadline = s.nowN + s.trugTimeout o.ext) ∧
    (∀ (n : Fin 8) (pick : Fin 128) (b : Batch), s.dueBatch n = some b → s.clusterUp n = true → s.frost.phase = .running →
      ∃ t, exec (.trugDeadline n pick) s = .next t ∧ t.passes = s.passes + 1 ∧
        ∃ q ∈ t.batches, q.pass = some (s.passes + 1) ∧ q.reqs = b.reqs) ∧
    (∀ (e : PassEnd) (k : Nat) (b : Batch) (r : TrugReq) (q : Op), s.batches.find? (fun b => b.pass == some e.pass) = some b → b.core = some k →
      (s.core k).resetting = false → (s.cluster b.cluster).resetting = false → b.reqs.head? = some r → s.op? r.ctx r.idx = some q →
      s.mayFinish { q with cluster := b.cluster, core := some k } = true → s.passBehind b = false →
      (s.core k).arrayOn = true ∨ s.pwr.shed = 0 →
      ∃ t, exec (.trugPassDone e) s = .next t ∧ ∀ b ∈ t.batches, b.pass ≠ some e.pass)

/-- R334, R336: in a formed group whose set is present, with every ring link UP, a collective that passes its checks is issued,
and, where something is left for this member to do after it has begun, is among the device's collectives with its set, tag and
deadline (unless poison it copied into its context's own structures has ended that context). Choices of the model that it rests
on: log entry 20. -/
def Obligations.CollectivesBegin : Prop :=
  ∀ (s : State) (c : Fin 64) (x : Context) (d : Block) (o : Op) (e : CollSet), s.noneWaits c → s.collHeld = [] →
    s.collSet (kSet d) = some e → e.refused = false → s.group.formed = true → (∀ n ∈ e.ports, (s.link n).state = .up) →
    s.coll? (kSet d) (kTag d) = none → s.colls.all (fun q => !(q.ctx == c.val && q.idx == x.sqHead)) = true →
    (∀ (u : State) (q : Coll), q.left = (collPlan d e).flatMap (duties d e (e.rank s.group.self)) → q.noCheck = [] →
      u.group = s.group → (u.collBegin q d e).1.left ≠ []) →
    ∀ i opc, (i, opc) ∈ [(Instr.allReduce c, 0x30), (Instr.reduceScatter c, 0x31), (Instr.allGather c, 0x32), (Instr.broadcast c, 0x33)] →
      s.takes c opc x d → checkColl s x (s.newOp c x d) = .go o →
      ∃ t, exec i s = .next t ∧ (kReduce d = true ∨ s.poisonAt (kSrc d) (pieceBytes d) = [] → s.issues t c 1 x o) ∧
        (t.ended c ∨ ∃ q ∈ t.colls, q.ctx = c ∧ q.idx = x.sqHead ∧ q.setId = kSet d ∧ q.tag = kTag d ∧ q.deadline = s.nowN + kTimeout d) ∧
        (kReduce d = true ∨ s.poisonAt (kSrc d) (pieceBytes d) = [] → ¬ t.ended c)

/-- R364: a PRUNE_UPDATE of rule 1 or 2 and a SWEEP that pass their checks are issued and stand last in the Pruner queue.
Choices of the model that it rests on: log entry 39. -/
def Obligations.PrunerCommandsQueue : Prop :=
  ∀ (s : State) (c : Fin 64) (x : Context) (d : Block) (o : Op), s.noneWaits c → (freshShares d).all id = false →
    s.pruneQ.all (fun q => !(q.ctx == c.val && q.idx == x.sqHead)) = true →
    (s.takes c 0x38 x d → pRule d ≠ 3 → checkPrune s x (s.newOp c x d) = .go o →
      ∃ t p, exec (.pruneUpdate c) s = .next t ∧ s.issues t c 1 x o ∧ t.pruneQ = s.pruneQ ++ [p] ∧ p.ctx = c.val ∧ p.idx = x.sqHead) ∧
    (s.takes c 0x39 x d → checkSweep s x (s.newOp c x d) = .go o → s.sweepClosing = false →
      ∃ t p, exec (.sweep c) s = .next t ∧ s.issues t c 1 x o ∧ t.pruneQ = s.pruneQ ++ [p] ∧ p.ctx = c.val ∧ p.idx = x.sqHead ∧
        p.phase = .sweep)

/-- R363, R373, R357: a Pruner that finishes its share marks it, until the phase ends; an exchange that has every partial ends;
a collective whose timeout has expired ends and completes its command. Choices of the model that it rests on: log entries 39,
40. -/
def Obligations.SharesExchangesAndTimeouts : Prop :=
  ∀ (s : State) (c : Fin 64) (idx : W32),
    (∀ (n : Fin 8) (p : PruneCmd) (o : Op), s.prNext n s.pruneQ [] = some (p, o) → s.prune? p.ctx p.idx = some p →
      s.frost.phase = .running → (s.hbm n).prnReset = false → s.pwr.shed < 6 → s.mayFinish o = true →
      ∃ t, exec (.prunerShareDone n) s = .next t ∧
        ∀ q, t.prune? p.ctx p.idx = some q → q.phase = p.phase → unitAt false q.done n = true) ∧
    (∀ (p : PruneCmd) (o : Op) (e : CollSet) (parts : List NormPart),
      s.pruneQ.filter (fun q => q.ctx == c.val && q.idx == idx) = [p] → s.op? c idx = some o →
      p.phase = .exchange → s.mayFinish o = true → s.collSet (pSet o.desc) = some e →
      (sortParts e.members (p.own s.group.self :: parts)).length = e.members.length →
      ∃ t, exec (.normExchangeDone c idx parts) s = .next t ∧ ∀ q, t.prune? c idx = some q → q.phase ≠ .exchange) ∧
    (∀ q, s.colls.find? (fun q => q.ctx == c.val && q.idx == idx) = some q → q.deadline ≤ s.nowN → s.frost.phase = .running →
      ∃ t, exec (.collectiveTimeout c idx) s = .next t ∧ t.gone c idx ∧
        t.colls.all (fun q => !(q.ctx == c.val && q.idx == idx)) = true)

/-- R145, R201: ISSUE_RESUME takes an entry that waited as the command of its opcode would, and a NOP so completes; a core that
becomes free is taken by the entry of the space that began to wait first, as that command would take it, and a VEC that passes
its checks is so issued. Choices of the model that it rests on: log entry 31. -/
def Obligations.WaitingIssueResumes : Prop :=
  ∀ (s : State) (c : Fin 64) (x : Context) (d : Block), s.frost.phase = .running → s.sun.suspects = [] → s.sun.replay = none →
    x.issueWait.isSome = true → (∀ o ∈ s.ops, o.ctx = c → o.phase ≠ .restart) →
    (∀ i opc, (i, opc) ∈ [(Instr.nop c, 0x00), (.fence c, 0x01), (.flushRange c, 0x02), (.invalRange c, 0x03), (.signal c, 0x04),
        (.wait c, 0x05), (.remoteFence c, 0x06), (.frost c, 0x07), (.accRelease c, 0x14), (.trugSlotSet c, 0x28), (.trugPost c, 0x29),
        (.allReduce c, 0x30), (.reduceScatter c, 0x31), (.allGather c, 0x32), (.broadcast c, 0x33), (.pruneUpdate c, 0x38)] →
      s.takes c opc x d → exec (.issueResume c) s = exec i s) ∧
    (s.takes c 0x00 x d → s.mem.wf = true → s.noneWaits c → x.apart →
      ∃ t, exec (.issueResume c) s = .next t ∧ s.completesNext t c x (s.newOp c x d)) ∧
    (∀ (k : Fin 128) (sp : Nat), s.coreUp k = true → (s.core k).bound = none → (∀ b ∈ s.batches, b.core ≠ some k.val) →
      s.coreWait.find? (fun w => match s.ctx w.1 with
        | some y => y.clusters.getLsbD (k.val / 16)
        | none => false) = some (c.val, sp) →
      (∀ i opc, (i, opc) ∈ [(Instr.matmul c k, 0x10), (.matmulDd c k, 0x11), (.accLoad c k, 0x12), (.accStore c k, 0x13),
          (.vec c k, 0x18), (.dma c k, 0x20), (.slice c k, 0x21)] → s.takes c opc x d → exec (.freeCoreGrant k) s = exec i s) ∧
      ∀ o j, s.takes c 0x18 x d → s.noneWaits c → checkVec k s x (s.newOp c x d) = .go o → o.core = some j → j < s.cores.length →
        ∃ t, exec (.freeCoreGrant k) s = .next t ∧ s.issues t c 1 x o ∧ (t.core j).run = x.sqHead)

/-! ### The host port -/

/-- R197, R199: SQ_TAIL and CQ_HEAD take a doorbell value, or ignore and count one that is not monotonic or too far; R187: a
stream grant moves on by the difference from the doorbell's previous value, modulo 2^32. Choices of the model that it rests on:
log entry 62. -/
def Obligations.DoorbellsTakeEffect : Prop :=
  ∀ (s : State) (c : Fin 64) (x : Context) (v : W32), s.ctx c = some x → 1 ≤ s.start.stage → s.served x = true →
    ((x.sqTail - x.sqHead).toNat ≤ (v - x.sqHead).toNat → (v - x.sqHead).toNat ≤ 2 ^ x.sqLog2 →
      ∃ t y, exec (.sqTail c v) s = .next t ∧ t.ctx c = some y ∧ y.sqTail = v ∧ y.dbErrs = x.dbErrs) ∧
    ((v - x.sqHead).toNat < (x.sqTail - x.sqHead).toNat ∨ 2 ^ x.sqLog2 < (v - x.sqHead).toNat →
      ∃ t y, exec (.sqTail c v) s = .next t ∧ t.ctx c = some y ∧ y.sqTail = x.sqTail ∧
        y.dbErrs = BitVec.ofNat 16 (satAt 0xFFFF (x.dbErrs.toNat + 1))) ∧
    ((x.cqTail - v).toNat ≤ (x.cqTail - x.cqHead).toNat →
      ∃ t y, exec (.cqHead c v) s = .next t ∧ t.ctx c = some y ∧ y.cqHead = v ∧ y.dbErrs = x.dbErrs) ∧
    ((x.cqTail - x.cqHead).toNat < (x.cqTail - v).toNat →
      ∃ t y, exec (.cqHead c v) s = .next t ∧ t.ctx c = some y ∧ y.cqHead = x.cqHead ∧
        y.dbErrs = BitVec.ofNat 16 (satAt 0xFFFF (x.dbErrs.toNat + 1))) ∧
    (∀ (k : Fin 8) (g : Stream), x.status = .active → x.streams[k.val]? = some g →
      ∃ t y, exec (.streamGrant c k v) s = .next t ∧ t.ctx c = some y ∧
        y.streams[k.val]? = some { g with grant := g.grant + (v - g.prev).toNat, prev := v })

/-- R250, R267, R268: a BAR2 read that maps, is open and passes its check returns the home's bytes, with EP where a granule is
poisoned; a BAR2 write is performed at its home, no byte outside it changes, and one with EP that covers no context's completion
ring or status block poisons every granule it covers. Choices of the model that it rests on: log entry 62. -/
def Obligations.Bar2ReachesItsHome : Prop :=
  ∀ (s : State) (off a : Nat),
    (∀ len, s.bar2Map off len = some a → s.bar2Open a = true → s.bar2Pass a len = true →
      ∃ t l, exec (.bar2Read off len) s = .next t ∧
        t.out = l ++ [.bar2Data (s.bytesAt a len) (!(s.poisonAt a len).isEmpty)] ∧ t.mem = s.mem) ∧
    (∀ data, s.mem.wf = true → s.bar2Map off data.length = some a → s.bar2Open a = true → s.bar2Pass a data.length = true →
      (s.frost.phase ≠ .frozen ∨ s.frost.stateWrite = true) →
      ∃ t, exec (.bar2Write off data false) s = .next t ∧ t.mem.read a data.length = data ∧
        ∀ b, (b < a ∨ a + data.length ≤ b) → t.mem.byte b = s.mem.byte b) ∧
    (∀ data, s.mem.wf = true → s.bar2Map off data.length = some a → s.bar2Open a = true → s.bar2Pass a data.length = true →
      (s.frost.phase ≠ .frozen ∨ s.frost.stateWrite = true) →
      (∀ c x, s.ctx c = some x → ∀ g ∈ granules a data.length, structGranule x g = false) →
      ∃ t, exec (.bar2Write off data true) s = .next t ∧ t.mem.read a data.length = data ∧
        (∀ g ∈ granules a data.length, t.mem.isPoison g = true) ∧
        ∀ b, (b < a ∨ a + data.length ≤ b) → t.mem.byte b = s.mem.byte b)

/-- R190, R419, R467, R471: what the pins and the link of the PCIe port do to it; a Function Level Reset and PERST# end the
host's session and its contexts. Choices of the model that it rests on: log entry 27. -/
def Obligations.PcieEventsSetThePort : Prop :=
  ∀ s : State,
    (s.pcie.l0 = true → ∃ t, exec .pcieLinkDown s = .next t ∧
      t.pcie = { s.pcie with l0 := false, rate := 0, width := 0, flitMode := false, training := !s.pcie.perst }) ∧
    (∀ rate width, s.pcie.l0 = false → s.pcie.training = true → ∃ t, exec (.pcieLinkUp rate width) s = .next t ∧
      t.pcie = { s.pcie with l0 := true, training := false, rate := rate, width := width, flitMode := rate == 6 }) ∧
    (∃ t, exec .functionLevelReset s = .next t ∧ t.mbx.opened = false ∧ t.mbx.priv = false ∧ t.pcie.bar2On = false ∧
      ∀ (c : Fin 64) x, s.ctx c = some x → x.planned = false → t.ended c) ∧
    (∃ t, exec .perstAssert s = .next t ∧ t.mbx.opened = false ∧ t.pcie.perst = true ∧ t.pcie.l0 = false ∧ t.pcie.training = false ∧
      ∀ (c : Fin 64) x, s.ctx c = some x → x.planned = false → t.ended c) ∧
    (s.pcie.perst = true → exec .perstDeassert s
      = .next { s with pcie := { s.pcie with perst := false, training := s.stage0Reached && !s.pcie.l0 } }) ∧
    (∀ b, s.stage0Reached = false → exec (.configurationRequest b) s = .next { s with out := s.out ++ [.configRetry] }) ∧
    (∀ on k, s.stage0Reached = true → exec (.configurationRequest (some (on, k))) s
      = .next { s with pcie := { s.pcie with bar2On := on, bar2Gib := 2 ^ k.val }, out := s.out ++ [.configOk] })

/-! ### The management mailbox and the graft -/

/-- R472 to R474, R481, R530: requests that read or open something are answered with OK once the mailbox takes them; before
Stage 1 it takes GET_STATUS, LOG_READ, RECOVER_WRITE and DUMP_READ (R420). Choices of the model that it rests on: log entries
23, 60. -/
def Obligations.MailboxAnswersRequests : Prop :=
  ∀ (s : State) (seq : W32),
    (s.mailboxReady ∨ s.mbx.busy = false ∧ s.start.stage = 0 →
      (∃ t, exec (.getStatus seq) s = .next t ∧ t.answered stOk 0) ∧
      (∀ o, s.mayWrite o 0x5_0000 = true → fieldAt (s.reqBytes 0 16) 0 2 = 0x01 →
        ∃ t, exec (.mbxGo o) s = .next t ∧ t.answered stOk 0) ∧
      (∀ index, ∃ t, exec (.logRead seq index) s = .next t ∧ t.answered stOk 0) ∧
      (∀ off data, s.start.halted = true → data.length ≤ 4064 → (s.proc 0).runs = true →
        ∃ t, exec (.recoverWrite seq off data) s = .next t ∧ t.answered stOk 0) ∧
      (∀ dump host len d bad, s.dumpOf dump.toNat = some (d, bad) →
        ∃ t, exec (.dumpRead seq dump host len) s = .next t ∧ t.answered stOk 0 ∧ Output.hostWrite host (d.take len.toNat) bad ∈ t.out)) ∧
    (s.mailboxReady →
      (∀ major minor, major.toNat = s.fw.ifMajor → minor.toNat ≤ s.fw.ifMinor → ∃ t, exec (.hello seq major minor) s = .next t ∧ t.answered stOk 0 ∧
        t.mbx.session = s.mbx.session + 1 ∧ t.mbx.opened = true ∧ t.mbx.priv = false) ∧
      (∀ on, s.mbx.opened = true → on = 0 ∨ on = 1 → ∃ t, exec (.bar2Priv seq on) s = .next t ∧ t.answered stOk 0 ∧
        t.mbx.priv = (on == 1)) ∧
      (∃ t, exec (.graftStatus seq) s = .next t ∧ t.answered stOk 0) ∧
      (∀ nonce form host len, (s.proc 0).runs = true → form.toNat ≤ 1 →
        3509 + (if form = 1 then 96 * s.sec.mlog.length else 0) + 2 * certLen ≤ len.toNat →
        ∃ t, exec (.attest seq nonce form host len) s = .next t ∧ t.answered stOk 0))

/-- R473 to R479: a session creates, aborts and destroys contexts and sets their regions, but none that the group manager
created; a region entry is applied once nothing of the context is in flight, or withdrawn with WAIT_TIMEOUT. Choices of the
model that it rests on: log entry 60. -/
def Obligations.MailboxManagesContexts : Prop :=
  ∀ (s : State) (seq : W32),
    (s.mailboxReady → s.mbx.opened = true →
      (∀ r c b, 2 ≤ s.start.stage → s.createCtx r = .inl (c, b) → c < s.ctxs.length →
        ∃ t, exec (.ctxCreate seq r) s = .next t ∧ t.answered stOk 0 ∧ t.ctx c = some (s.newCtx r (.host s.mbx.session) b)) ∧
      (∀ (c index : Byte) (e : BitVec 128) (timeout : W32) x, s.ctx c.toNat = some x → x.owner = .group →
        ∀ i ∈ [Instr.ctxDestroy seq c, .ctxAbort seq c, .regionSet seq c index e timeout],
          ∃ t, exec i s = .next t ∧ t.answered stNotPermitted reNotOwner ∧ t.ctx c.toNat = some x) ∧
      (∀ c : Byte, s.hostCtx c.toNat = true →
        (∃ t, exec (.ctxDestroy seq c) s = .next t ∧ t.answered stOk 0 ∧ t.ctx c.toNat = none) ∧
        (∃ t, exec (.ctxAbort seq c) s = .next t ∧ t.answered stOk 0 ∧ t.ended c.toNat)) ∧
      (∀ (c index : Byte) (e : BitVec 128) (timeout : W32) x, s.ownCtx c.toNat = true → s.ctx c.toNat = some x → index.toNat ≤ 63 →
        regionOk x (regionOf e) = true →
        ∃ t y p, exec (.regionSet seq c index e timeout) s = .next t ∧ t.ctx c.toNat = some y ∧ y.pending = some p ∧
          p.index = index.toNat ∧ p.region = regionOf e ∧ y.regions = x.regions ∧
          p.deadline = s.nowN + (if timeout = 0 then 100000000 else timeout.toNat))) ∧
    (∀ (c : Fin 64) x p, s.ctx c = some x → x.pending = some p → (s.proc 2).runs = true →
      (s.regionReady c x = true → ∃ t y, exec (.regionApply c) s = .next t ∧ t.answered stOk 0 ∧ t.ctx c = some y ∧ y.pending = none ∧
        y.regions = x.regions.set p.index p.region) ∧
      (p.deadline ≤ s.nowN → ∃ t y, exec (.regionSetTimeout c) s = .next t ∧ t.answered stWaitTimeout 0 ∧ t.ctx c = some y ∧
        y.pending = none ∧ y.regions = x.regions))

/-- R394, R480, R489, R490: a manager or deputy takes a job record; a staged image that passes its checks is written to the
other slot; an activated graft runs unless it is deferred. Choices of the model that it rests on: log entries 7, 23, 59. -/
def Obligations.MailboxLoadsJobsAndImages : Prop :=
  ∀ (s : State) (seq : W32), s.mailboxReady → s.mbx.opened = true →
    (∀ (addr : BitVec 48) (len : W32) j, s.leads = true → len.toNat ≤ 0x400_0000 → inCtxRange addr.toNat len.toNat = true →
      s.poisonAt addr.toNat len.toNat = [] → s.group.cfg.bind (fun c => jobOf c (s.bytesAt addr.toNat len.toNat)) = some j →
      ∃ t, exec (.jobLoad seq addr len) s = .next t ∧ t.answered stOk 0) ∧
    (∀ (addr : BitVec 48) (len : W32),
      let img := s.bytesAt addr.toNat len.toNat
      len.toNat ≤ 0x100_0000 → inCtxRange addr.toNat len.toNat = true → s.poisonAt addr.toNat len.toNat = [] →
      (s.proc 0).runs = true → (s.fw.phase = phIdle ∨ s.fw.phase = phStaged) →
      let good := (s.slotSigned (img.take 5645)).1 && imagesOk (img.take 5645) (fun o k => (img.drop o).take k)
        && decide (unitAt 0 s.flash.rpmc 2 ≤ slotSec (img.take 5645)) && Config.pufGood
      ∃ t, exec (.graftStage seq addr len) s = .next t ∧
        (good = true → fieldAt (img.take 5645) 4 1 = 1 → t.answered stOk 0 ∧ t.fw.phase = phWriting ∧ t.fw.stagedAt = addr.toNat ∧
          t.fw.stagedLen = len.toNat ∧ t.votes.flashLock = .of 0) ∧
        (good = false → t.answered stBadFormat reImage ∧ t.fw = s.fw)) ∧
    (s.fw.phase = phStaged → s.pwr.state = .active → s.graftDefers = none →
      ∃ t, exec (.graftActivate seq) s = .next t ∧ t.answered stOk 0 ∧ t.fw.phase = phRunning ∧ t.fw.oldSlot = s.start.runSlot)

/-- R489 to R492: the phases of a graft: WRITING to STAGED, the handovers one by one, TRIAL, IDLE after it; a deferred graft
goes on by itself, a late one rolls back. Choices of the model that it rests on: log entries 7, 59. -/
def Obligations.GraftPhasesFollow : Prop :=
  ∀ s : State,
    (s.fw.phase = phWriting → (s.proc 0).runs = true → ∃ t, exec .graftWriteDone s = .next t ∧ t.fw.phase = phStaged ∧ t.votes.flashLock = .of 1) ∧
    (s.fw.phase = phRunning → s.fw.verified = false → (s.proc 0).runs = true →
      ∃ t, exec .graftVerifyDone s = .next t ∧
        ((s.slotOk s.newSlot).1 = true → t.fw.verified = true ∧ t.flash.trial = true ∧ t.fw.phase = phRunning) ∧
        ((s.slotOk s.newSlot).1 = false → t.fw.phase = phRolledBack ∧ t.start.runSlot = s.fw.oldSlot)) ∧
    (∀ r i, s.fw.phase = phRunning → s.fw.readyBy = some r → handOrder[s.fw.nextProc]? = some i → i < s.fw.procs.length →
      ∃ t p, exec .graftHandover s = .next t ∧ t.fw.nextProc = s.fw.nextProc + 1 ∧ t.fw.procs[i]? = some p ∧ p.slot = s.newSlot ∧
        (s.fw.nextProc = 10 → t.fw.phase = phTrial ∧ t.start.runSlot = s.newSlot)) ∧
    (s.fw.phase = phRunning → s.fw.verified = true → s.fw.readyBy = none → s.emergencyHolds = false → s.fw.nextProc < 11 →
      ∃ t, exec .graftHandoverResume s = .next t ∧ t.fw.readyBy = some (s.nowN + 500000000)) ∧
    (∀ r, s.fw.phase = phRunning → s.fw.readyBy = some r → r ≤ s.nowN →
      ∃ t, exec .graftReadyTimeout s = .next t ∧ t.fw.phase = phRolledBack ∧ t.start.runSlot = s.fw.oldSlot ∧ t.flash.trial = false) ∧
    (s.fw.phase = phTrial → s.fw.stepT + 60000000000 ≤ s.nowN → (s.proc 0).runs = true →
      ∃ t, exec .graftTrialEnd s = .next t ∧ t.fw.phase = phIdle ∧ t.flash.bootSlot = s.start.runSlot ∧ t.flash.trial = false) ∧
    (s.fw.phase = phDeferred → s.graftDefers = none → ∃ t, exec .graftDeferEnd s = .next t ∧ t.fw.phase = phRunning)

/-! ### Reset, the shape of the state -/

/-- Reset: the time base is 0 (R49), no stage is reached, no context, no command, no memory listed, every voted field has its
reset value in three copies, and the registers listed read as the maps give them (R563, R569). Choices of the model that it
rests on: log entry 1. -/
def Obligations.ResetGivesTheStatedValues : Prop :=
  State.reset.time.now = 0 ∧ State.reset.start.stage = 0 ∧ State.reset.pending = [] ∧ State.reset.ops = [] ∧
  (∀ c, State.reset.ctx c = none) ∧ State.reset.mem.cells = [] ∧ State.reset.mem.wf = true ∧ State.reset.shaped ∧
  (∀ f ∈ votedFields, State.reset.votes.get f = .of (fieldReset f)) ∧
  ∀ e ∈ ([(0x00, 0x4C81_1111), (0x08, 0xFFFF), (0x10, 0), (0x14, 0), (0x20, 0), (0x28, 0), (0x30, 0), (0x40, 0), (0x60, 0), (0x1_0000, 0),
      (0x1_0004, 0), (0x1_0008, 0), (0x1_0100, 0x4E20), (0x1_0200, 0), (0x2_0000, 2), (0x2_0008, 0x80), (0x2_000C, 0), (0x2_0014, 0x3_0000),
      (0x3_0000, 0x0A64), (0x3_0004, 0), (0x4_0000, 0), (0x4_0004, 3), (0x5_0004, 0), (0x6_0004, 0x64_0032), (0x6_0008, 0xC8_000A),
      (0x6_000C, 0), (0x6_0010, 0), (0x7_0000, 8), (0x7_0004, 0), (0x7_0008, 0), (0x8_0100, 0), (0x9_0000, 0), (0x9_0004, 1), (0xA_0000, 0),
      (0xB_0000, 0), (0xB_0010, 0)] : List (Nat × Nat)), State.reset.regVal e.1 = e.2

/-- Every step keeps the units of the device and the canonical form of its counters and wide mailboxes. -/
def Obligations.StepKeepsShape : Prop :=
  ∀ s t : State, s.shaped → Machine.step s = .next t → t.shaped

/-! ### Registers -/

/-- R557, R560, R561, R562: an access of a wrong size or alignment, to a reserved offset, from an origin without the right, or
to a domain that is off is recorded, counted, and has no other effect; so is a write of TOP_RESET_CTL without its key (R572).
Choices of the model that it rests on: log entry 65. -/
def Obligations.FailedAccessesAreRecorded : Prop :=
  ∀ (s : State) (o : Origin) (off : BitVec 26), s.shaped →
    (∀ size v, ¬ ((size = 4 ∨ size = 8) ∧ off.toNat % size = 0) →
      ∃ t, exec (.registerWrite o off size v) s = .next t ∧ s.accessFailed t o aeSize off.toNat) ∧
    (off.toNat % 4 = 0 →
      (regInfo off.toNat = none → (∀ v, ∃ t, exec (.registerWrite o off 4 v) s = .next t ∧ s.accessFailed t o aeReserved off.toNat) ∧
        ∃ t, exec (.registerRead o off 4) s = .next (t.emit (.regData 0)) ∧ s.accessFailed t o aeReserved off.toNat) ∧
      (∀ i, regInfo off.toNat = some i →
        (s.mayWrite o off.toNat = false → ∀ v, ∃ t, exec (.registerWrite o off 4 v) s = .next t ∧ s.accessFailed t o aeOrigin off.toNat) ∧
        (s.mayRead o off.toNat i = false →
          ∃ t, exec (.registerRead o off 4) s = .next (t.emit (.regData 0)) ∧ s.accessFailed t o aeOrigin off.toNat) ∧
        (s.powered i.dom = false →
          (s.mayWrite o off.toNat = true → ∀ v, ∃ t, exec (.registerWrite o off 4 v) s = .next t ∧ s.accessFailed t o aeOff off.toNat) ∧
          (s.mayRead o off.toNat i = true →
            ∃ t, exec (.registerRead o off 4) s = .next (t.emit (.regData 0xFFFF_FFFF)) ∧ s.accessFailed t o aeOff off.toNat)))) ∧
    (∀ key : Byte, key ≠ 0x5A → s.mayWrite o 0x10 = true →
      (∃ t, exec (.topResetCold o key) s = .next t ∧ s.accessFailed t o aeOrigin 0x10) ∧
      (∃ t, exec (.topResetWarm o key) s = .next t ∧ s.accessFailed t o aeOrigin 0x10) ∧
      ∀ clusters, ∃ t, exec (.topResetCluster o key clusters) s = .next t ∧ s.accessFailed t o aeOrigin 0x10)

/-- R572, R432, R508: with the key and no request standing, TOP_RESET_CTL begins a device reset, or the reset of a cluster;
UNPARK through BAR4 or the sideband begins a cold reset of a parked device. Choices of the model that it rests on: log entry 65. -/
def Obligations.ResetRequestsBegin : Prop :=
  ∀ (s : State) (o : Origin), s.sized → s.mayWrite o 0x10 = true →
    (s.sun.parked = false → s.resetCtl = 0 →
      (∃ t, exec (.topResetCold o 0x5A) s = .next t ∧ s.recovers t .cold ∧ t.stopped ∧ t.start.resetWhy = 2 ∧ t.votes.resetCold = .of 1) ∧
      (∃ t, exec (.topResetWarm o 0x5A) s = .next t ∧ s.recovers t s.warmUnit ∧ t.stopped ∧ t.start.resetWhy = 1 ∧ t.votes.resetWarm = .of 1) ∧
      (∀ n : Fin 8, s.sun.recov = none →
        ∃ t, exec (.topResetCluster o 0x5A (1 <<< n.val)) s = .next t ∧ s.recovers t (.cluster n) ∧ (t.cluster n).resetting = true ∧
          t.votes.resetCluster = .of (1 <<< n.val))) ∧
    (s.sun.parked = true → ∀ p ∈ [Origin.bar4, Origin.sideband],
      ∃ t, exec (.unpark p) s = .next t ∧ t.sun.parked = false ∧ s.recovers t .cold ∧ t.stopped ∧ t.start.resetWhy = 5)

/-- What writes of registers do: MODE (R439), the PERF filters, which zero the TAGGED counters (R540), PCIE_BAR2_BASE while BAR2
is disabled (R573), a shadowed register, which changes the shadow set only (R435), a write-1-to-clear register, CFG_SWAP (R436).
Choices of the model that it rests on: log entry 65. -/
def Obligations.RegisterWritesTakeEffect : Prop :=
  ∀ (s : State) (o : Origin),
    (∀ v : W32, s.mayWrite o 0x2_0000 = true → ∃ t, exec (.pwrModeWrite o v) s = .next t ∧ t.mem = s.mem ∧
      t.votes = if v.toNat % 4 = 3 then s.votes else { s.votes with mode := .of (BitVec.ofNat 16 (v.toNat % 4)) }) ∧
    (∀ r (v : W32), s.admitsWrite o (perfOffset r) → ∃ t, exec (.perfFilterWrite o r v) s = .next t ∧ t.mem = s.mem ∧ t.votes = s.votes ∧
      t.regVal (perfOffset r) = v.toNat &&& (if r = .filter then 0x7F else 0xFFFF_FFFF) ∧
      ∀ n k, n < 8 → k < 65536 → sparseGet 0 t.perf (perfKey 5 n k) = 0) ∧
    (∀ v : W32, s.admitsWrite o 0xB_0010 → s.pcie.bar2On = false →
      exec (.pcieBar2BaseWrite o v) s = .next { s with regs := { s.regs with bar2Base := v &&& 0x1FF } }) ∧
    (∀ (off : BitVec 26) m d (v : W64), shField off.toNat = some (m, d) → s.mayWrite o off.toNat = true → off.toNat % 4 = 0 →
      exec (.registerWrite o off 4 v) s = .next { s with regs := { s.regs with
        dirty := true, shadow := cfgPut s.regs.shadow off.toNat (BitVec.ofNat 32 (v.toNat % 2 ^ 32 &&& m)) } }) ∧
    (∀ v : W64, s.mayWrite o 0x20 = true → exec (.registerWrite o 0x20 4 v) s
      = .next { s with regs := { s.regs with topEvent := s.regs.topEvent &&& ~~~(BitVec.ofNat 32 (v.toNat % 2 ^ 32 &&& 0xF)) } }) ∧
    (s.admitsWrite o 0x1_0000 → 1 ≤ s.start.stage →
      exec (.cfgSwapRequest o) s = .next { s with votes := { s.votes with swap := .of 1 } } ∧
      ∃ t, exec (.cfgSwapWithdraw o) s = .next t ∧ t.votes.swap = .of 0 ∧ t.regs.active = s.regs.active)

/-- R436, R437: at a step boundary a pending swap copies the shadow set to the active one, which keeps its own values, raises
the generation, and clears SWAP and DIRTY. Choices of the model that it rests on: log entry 66. -/
def Obligations.ConfigurationSwaps : Prop :=
  ∀ s : State, s.voted .swap ≠ 0 → s.frost.phase = .running → s.swapBoundary = true →
    ∃ t, exec .cfgSwapPerform s = .next t ∧ t.regs.active = s.regs.shadow ∧ t.regs.shadow = s.regs.shadow ∧
      t.regs.gen = s.regs.gen + 1 ∧ t.regs.dirty = false ∧ t.votes.swap = .of 0

/-- R315, R317, R328, R462: LINK_CTL starts, shuts down and restarts a link. Choices of the model that it rests on: log entry
63. -/
def Obligations.LinkControlSwitchesLinks : Prop :=
  ∀ (s : State) (o : Origin) (n : Fin 24), s.sized → s.admitsWrite o (blkLink n) →
    (s.voted (.linkEnable n) = 0 → HeldFunction.runner n ∉ s.pwr.shutting → (s.link n).state = .disabled →
      ∃ t, exec (.linkEnable o n) s = .next t ∧ (t.link n).state = .detect ∧ t.votes.get (.linkEnable n) = .of 1) ∧
    (s.voted (.linkEnable n) ≠ 0 → HeldFunction.runner n ∉ s.pwr.shutting → (s.link n).state ≠ .disabled →
      ∃ t, exec (.linkDisable o n) s = .next t ∧ (t.link n).state = .shutdown ∧ HeldFunction.runner n ∈ t.pwr.shutting ∧
        t.votes.get (.linkEnable n) = .of 0) ∧
    (HeldFunction.runner n ∈ s.pwr.shutting → s.voted (.linkEnable n) = 0 →
      ∃ t, exec (.linkEnable o n) s = .next t ∧ HeldFunction.runner n ∈ t.pwr.enabling) ∧
    ((s.link n).state.live = true → ∃ t, exec (.linkRetrainRequest o n) s = .next t ∧ (t.link n).state = .down ∧ (t.link n).cause = 7)

/-! ### Wide mailboxes, reads, the test access port -/

/-- R564 to R567: SNAP takes a capture of the selection into the origin's bank, or NOSEL, and over a capture that stands only
sets OVERRUN; DONE lets it go; a sideband write of WIDE_SEL is in bank 2. Choices of the model that it rests on: log entry 65. -/
def Obligations.WideMailboxCaptures : Prop :=
  ∀ (s : State) (o : Origin) (b : WideBlock), s.shaped → s.mayWrite o (wideBase b + 0xF04) = true →
    let w := s.bank (wideBase b) (originBank o)
    (w.valid = false → inCatalogue (wideBase b) w.sel.toNat = true → s.powered (wideDomain (wideBase b)) = true →
      ∃ t, exec (.wideSnap o b) s = .next t ∧ t.bank (wideBase b) (originBank o)
        = { w with valid := true, noSel := false, err := false, data := s.wideValue (wideBase b) w.sel.toNat } ∧ t = { s with banks := t.banks }) ∧
    (w.valid = false → inCatalogue (wideBase b) w.sel.toNat = false →
      ∃ t, exec (.wideSnap o b) s = .next t ∧ t.bank (wideBase b) (originBank o)
        = { w with valid := true, noSel := true, err := false, data := [] } ∧ t = { s with banks := t.banks }) ∧
    (w.valid = true → ∃ t, exec (.wideSnap o b) s = .next t ∧ t.bank (wideBase b) (originBank o) = { w with overrun := true } ∧
      t.mem = s.mem) ∧
    (w.valid = true → ∃ t, exec (.wideDone o b) s = .next t ∧ t.bank (wideBase b) (originBank o)
        = { w with valid := false, noSel := false, err := false, data := [] } ∧ t = { s with banks := t.banks }) ∧
    (sideWide (wideBase b) = true → ∀ v, ∃ t, exec (.smbusWrite (BitVec.ofNat 32 (wideBase b + 0xF00)) v true) s = .next t ∧
      t.bank (wideBase b) 2 = { s.bank (wideBase b) 2 with sel := v } ∧ t = { s with banks := t.banks })

/-- R556, R588, R589, R590: a permitted read answers with the register's value; the sideband with a status byte before it; a
transaction whose PEC fails is discarded; the alert is answered with the device's address; the boundary-scan instructions hold
the start before Stage 1 and are BYPASS after it. Choices of the model that it rests on: log entry 6. -/
def Obligations.ReadsAndScansAnswer : Prop :=
  ∀ s : State,
    (∀ (o : Origin) (off : BitVec 26) i, off.toNat % 4 = 0 → regInfo off.toNat = some i → wideAt off.toNat = none →
      s.mayRead o off.toNat i = true → s.powered i.dom = true →
      ∃ t l, exec (.registerRead o off 4) s = .next t ∧ t.out = l ++ [.regData (BitVec.ofNat 64 (s.regVal off.toNat % 2 ^ 32))] ∧
        t.mem = s.mem) ∧
    (∀ (off : W32) i, off.toNat % 4 = 0 → regInfo off.toNat = some i → wideAt off.toNat = none →
      s.mayRead .sideband off.toNat i = true → s.powered i.dom = true →
      ∃ t l, exec (.smbusRead off true) s = .next t ∧ t.out = l ++ [.smbusData 0 (BitVec.ofNat 32 (s.regVal off.toNat))] ∧ t.mem = s.mem) ∧
    (∀ off v, exec (.smbusRead off false) s = .next (s.emit .smbusNack) ∧ exec (.smbusWrite off v false) s = .next (s.emit .smbusNack)) ∧
    (s.sbAlert = true → exec .smbusAlertResponse s = .next (s.emit (.alertAddr (0x58 + s.start.sbAddr.setWidth 7)))) ∧
    (∃ t w, exec .idcode s = .next t ∧ t.out = s.out ++ [.jtag w] ∧ w.toNat % 2 = 1 ∧ w.toNat / 2 ^ 12 % 2 ^ 16 = 0x4C08 ∧ w.toNat / 2 ^ 28 = 1) ∧
    (∀ i ∈ [Instr.extest, .extestPulse, .extestTrain],
      (s.start.stage = 0 → ∃ t, exec i s = .next t ∧ t.start.extest = true ∧ t.out = s.out ++ [.jtagScan]) ∧
      (s.start.stage ≠ 0 → exec i s
        = .next { s with start := { s.start with bypass := true }, out := s.out ++ [.jtagBypass] })) ∧
    (s.start.extest = true → exec .stage1Reached s = .next s) ∧
    exec .testLogicReset s = .next { s with start := { s.start with extest := false, bypass := false } }

/-! ### Frost -/

/-- R509, R510, R513, R515, R233: the starts of a Frost set their holders and begin the cut; the settled cut freezes the
contexts; THAW clears REG, CMD and PIN, and with no holder left the thaw begins; at its end the device runs, and the FROST
command completes. Choices of the model that it rests on: log entry 46. -/
def Obligations.FrostsStartSettleAndThaw : Prop :=
  ∀ s : State, s.sized →
    (∀ o, s.mayWrite o 0x7_0000 = true → ∃ t, exec (.frostStart o) s = .next t ∧ t.frost.holders = s.frost.holders ||| 1 ∧
      (s.frost.phase = .running → t.frost.phase = .cutting ∧ t.frost.number = s.frost.localCount + 1 ∧ t.frost.group = false)) ∧
    (s.votes.pinEn.vote 1 ≠ 0 → ∃ t, exec .frostIn s = .next t ∧ t = { s with frost := t.frost } ∧ t.frost.holders = s.frost.holders ||| 4 ∧
      (s.frost.phase = .running → t.frost.phase = .cutting)) ∧
    (s.votes.pinEn.vote 1 = 0 → exec .frostIn s = .next s) ∧
    (∀ (c : Fin 64) x d, s.noneWaits c → s.takes c 0x07 x d → x.cperm.getLsbD 0 = true →
      ∃ t, exec (.frost c) s = .next t ∧ s.issues t c 1 x { s.newOp c x d with phase := .frostHeld } ∧
        t.frost.holders = s.frost.holders ||| 2 ∧ t.frost.phase = .cutting) ∧
    (s.frost.phase = .cutting → s.sun.recov = none → s.frost.holders ≠ 0 → s.group.roll = none → s.group.selfQ = [] →
      ∃ t, exec .frostCutSettled s = .next t ∧ t.frost.phase = .frozen ∧ t.frost.settled = true ∧ t.frost.cutT = s.nowN ∧
        ∀ c x, s.ctx c = some x → x.status = .active → ∃ y, t.ctx c = some y ∧ y.status = .frozen) ∧
    (∀ o, s.mayWrite o 0x7_0000 = true →
      (s.frost.holders &&& 7 ≠ 0 → ∃ t, exec (.frostThaw o) s = .next t ∧ t.frost.holders = s.frost.holders &&& 0x18 ∧
        (s.frost.holders &&& 0x18 = 0 → s.frost.phase = .frozen → t.frost.phase = .thawing)) ∧
      (s.frost.holders &&& 7 = 0 → ∃ t, exec (.frostThaw o) s = .next t ∧ t.frost.thawIgn = true ∧ t.frost.phase = s.frost.phase)) ∧
    (s.frost.phase = .thawing → s.frost.held = [] → s.group.plans = [] → s.group.selfQ = [] → (∀ k ∈ s.clusters, k.cspDue = false) →
      ∃ t, exec .frostThawDone s = .next t ∧ t.frost.phase = .running ∧
        ∀ o, s.ops = [o] → dOpcode o.desc = 0x07 → o.phase = .frostHeld → (∀ k ∈ s.cores, k.held = []) → t.gone o.ctx o.idx)

/-! ### Power-up and the stages -/

/-- R49, R413, R416 to R418, R442, R443, R582, R587: PWR_GOOD starts and ends everything; each step's requests follow the step
before; a regulator's acknowledgement ends them, its silence repeats them three times and then stops the start. Choices of the
model that it rests on: log entries 5, 57. -/
def Obligations.PowerUpFollowsTheSequence : Prop :=
  ∀ s : State, s.sized →
    (∀ a, s.start.good = false → ∃ t, exec (.pwrGoodRise a) s = .next t ∧ t.start.good = true ∧ t.start.sbAddr = a ∧ t.start.seqPos = 0 ∧
      t.time.now = 0 ∧ t.mem = s.mem) ∧
    (∀ k, s.start.good = true → k < 1000 → exec (.pwrGoodFall k) s = .next s) ∧
    (∀ k, s.start.good = true → 10000 ≤ k → ∃ t, exec (.pwrGoodFall k) s = .next t ∧ t.start = .reset ∧ t.mem = State.reset.mem ∧
      t.ctxs = State.reset.ctxs ∧ t.ops = [] ∧ t.flash.cells = s.flash.cells ∧ ∀ r, Output.regulator r 0 ∈ t.out) ∧
    (s.start.good = true → s.start.halted = false → s.therm.tripPin = false → s.start.seqT + s.stepDelay s.start.seqPos ≤ s.nowN →
      (s.start.seqPos = 0 → ∃ t, exec .powerUpStep s = .next t ∧ t.start.seqPos = 1 ∧ (t.proc 0).runs = true ∧ (t.proc 1).runs = true) ∧
      (1 ≤ s.start.seqPos → s.start.seqPos < 8 → s.pwr.reqs = [] →
        ∃ t, exec .powerUpStep s = .next t ∧ t.start = s.start ∧ t.mem = s.mem ∧
          ∀ e ∈ stepRails s.start.seqPos, (∃ q ∈ t.pwr.reqs, q.rail = e.1 ∧ q.mv = e.2) ∧ Output.regulator e.1 e.2 ∈ t.out)) ∧
    (∀ r q, s.pwr.reqs.find? (fun q => q.rail == r) = some q →
      (∃ t, exec (.regulatorAck r) s = .next t ∧ t.mem = s.mem ∧ (r ∈ t.pwr.railsOn ↔ q.mv ≠ 0) ∧ (r = .core → t.pwr.coreMv = q.mv)) ∧
      (s.start.halted = false → (∃ e ∈ stepRails s.start.seqPos, e.1 = r) →
        (∀ e ∈ s.pwr.reqs, e.rail ≠ r → ∀ x ∈ stepRails s.start.seqPos, x.1 ≠ e.rail) →
        ∃ t, exec (.regulatorAck r) s = .next t ∧ t.start.seqPos = s.start.seqPos + 1 ∧ t.start.seqT = s.nowN) ∧
      (q.sentAt + 1000000 ≤ s.nowN → q.retries < 3 → ∃ t, exec (.regulatorRetry r) s = .next t ∧
        t.pwr.reqs.find? (fun q => q.rail == r) = some { q with retries := q.retries + 1, sentAt := s.nowN } ∧ Output.regulator r q.mv ∈ t.out) ∧
      (q.sentAt + 1000000 ≤ s.nowN → 3 ≤ q.retries → ∃ t, exec (.regulatorRetry r) s = .next t ∧ t.start.halted = true ∧
        t.start.failCode = 0x0A ∧ (8 ≤ s.start.seqPos → t.pwr.regFault = true ∧ t.stopped))) ∧
    exec .pmbAlert s = .next { s with out := s.out ++ allRails.map Output.readStatus }

/-- R28 to R31, R424, R430, R431, R433: the start reaches Stage 1, or halts at Stage 0 with a code; it reaches Stage 2 with
every stack trained, and cleared unless it was kept, or halts for a stack that failed four times; a device alone reaches Stage
3; a core that fails its self-test is retired. Choices of the model that it rests on: log entries 7, 57. -/
def Obligations.StartReachesItsStages : Prop :=
  ∀ s : State, s.sized →
    (s.mayStart = true → ∃ t, exec .stage1Reached s = .next t ∧ t.mem = s.mem ∧
      (t.start.stage = 1 ∧ t.regs.gen = 1 ∧ t.regs.dirty = false ∧ (∀ p ∈ t.fw.procs, p.runs = true) ∧
          (∀ k c, t.cores[k]? = some c → c.inService = !t.retired.contains k) ∨
        t.start.stage = 0 ∧ t.start.halted = true ∧ t.start.failCode ≠ 0)) ∧
    (∀ tf fails, s.start.stage = 1 → s.start.halted = false → s.start.good = true → s.therm.tripPin = false → s.powered .fabric = true →
      ((s.start.trainedOnce = true ∨ ∀ e ∈ tf, e.2 < 4) → ∃ t, exec (.stage2Reached tf fails) s = .next t ∧ t.start.stage = 2 ∧
        t.start.trainedOnce = true ∧ (∀ h ∈ t.hbms, h.trained = true) ∧
        (s.start.trainedOnce = false → ∀ a, a < hbmEnd → t.mem.byte a = 0)) ∧
      (∀ e ∈ tf, s.start.trainedOnce = false → 4 ≤ e.2 → ∃ t, exec (.stage2Reached tf fails) s = .next t ∧ t.start.stage = 1 ∧
        t.start.halted = true ∧ t.start.failCode = 7 ∧ (t.hbm e.1).trainFail = true)) ∧
    (s.start.stage = 2 → s.start.failCode = 0 → s.group.cfg = none → (∀ n, n < 24 → s.linkOn n = true → (s.link n).state.settled = true) →
      ∃ t, exec .stage3Alone s = .next t ∧ t.start = { s.start with stage := 3 } ∧ t.mem = s.mem) ∧
    (∀ k : Fin 128, ((s.core k).resetting = true ∨ s.start.stage = 1) → (s.core k).retired = false →
      ∃ t, exec (.coreSelftestFail k) s = .next t ∧ (t.core k).retired = true ∧ (t.core k).inService = false ∧
        (s.retired.length < 8 → k.val ∈ t.retired))

/-- R52, R584, R458 to R460: clocks that stop and return; the hottest reading, the limit's dwells, the trip, and the restart
after it below 95 C. Choices of the model that it rests on: log entry 53. -/
def Obligations.ClocksAndTemperatureAct : Prop :=
  ∀ s : State, s.sized →
    exec .timerefLost s = .next { s with time := { s.time with refLost := true, lostFlag := true } } ∧
    exec .timerefReturn s = .next { s with time := { s.time with refLost := false } } ∧
    (s.start.good = true → s.sun.recov = none → s.sun.parked = false →
      ∃ t, exec .hbmrefLost s = .next t ∧ s.recovers t s.warmUnit ∧ t.stopped ∧ t.start.resetWhy = 3) ∧
    (∀ p : Fin 2, (∃ t, exec (.runrefLost p) s = .next t ∧ t.runref[p.val]? = some false ∧
        ∀ n : Fin 24, n.val / 12 = p.val → (s.link n).state.live = true → (t.link n).state = .down ∧ (t.link n).cause = 3) ∧
      exec (.runrefReturn p) s = .next { s with runref := s.runref.set p.val true }) ∧
    (∀ rd hb, (s.proc 1).runs = true → rd ≠ [] → ∃ t, exec (.thermalSample rd hb) s = .next t ∧ t.mem = s.mem ∧
      (∃ e ∈ rd, t.therm.tj = e.2 ∧ t.therm.site = e.1.val) ∧ (∀ e ∈ rd, e.2 ≤ t.therm.tj) ∧
      t.therm.overTj = (s.therm.overTj || decide (105 ≤ t.therm.tj))) ∧
    (∀ h, s.therm.hotAt = some h → (s.proc 1).runs = true → h + 1000000 ≤ s.nowN → s.modeEff < 2 →
      ∃ t, exec .thermalLimitLower s = .next t ∧ t.pwr.limit = s.modeEff + 1 ∧ t.therm.downEv = true ∧ t.therm.hotAt = some s.nowN) ∧
    (∀ c, s.therm.coolAt = some c → (s.proc 1).runs = true → c + 1000000000 ≤ s.nowN → 0 < s.pwr.limit →
      ∃ t, exec .thermalLimitRaise s = .next t ∧ t.pwr.limit = s.pwr.limit - 1 ∧ t.therm.up = true) ∧
    (s.start.good = true → s.therm.tripPin = false → ∃ t, exec .thermalTrip s = .next t ∧ t.therm.tripPin = true ∧ t.therm.tripped = true ∧
      t.stopped ∧ (∀ r ∈ t.pwr.railsOn, r = .pcieA ∨ r = .pcieH) ∧ Output.thermTrip true ∈ t.out) ∧
    (∀ o, s.mayWrite o 0x2_0004 = true → s.therm.tripPin = true →
      (s.therm.tj < 95 → ∃ t, exec (.tripRestart o) s = .next t ∧ t.therm.tripPin = false ∧ t.start.resetWhy = 6 ∧ Output.thermTrip false ∈ t.out) ∧
      (95 ≤ s.therm.tj → exec (.tripRestart o) s = .next s))

/-- R452, R455 to R457: a stage is entered with every lower one, stage 5 with a Frost; an undervoltage warning is stage 3; the
highest stage clears after 1 ms of margin; the fatal undervoltage is a device cold reset. Choices of the model that it rests on:
log entry 15. -/
def Obligations.ShedStagesEnterAndClear : Prop :=
  ∀ s : State,
    (∀ k : Fin 8, Rail.core ∈ s.pwr.railsOn → ∃ t, exec (.shedStageEnter k) s = .next t ∧ t.mem = s.mem ∧ t.pwr.shed = max s.pwr.shed k.val ∧
      (s.pwr.shed < k.val → t.pwr.shedSeen = true) ∧ (s.pwr.shed < 5 → 5 ≤ k.val → t.frost.holders.getLsbD 3 = true)) ∧
    (∀ r, (∃ t, exec (.undervoltageWarning r true) s = .next t ∧ t.pwr.uvSeen = true ∧ r ∈ t.pwr.uvRails ∧ t.pwr.shed = max s.pwr.shed 3) ∧
      ∃ t, exec (.undervoltageWarning r false) s = .next t ∧ r ∉ t.pwr.uvRails ∧ t.pwr.shed = s.pwr.shed) ∧
    (0 < s.pwr.shed → s.pwr.shedT + 1000000 ≤ s.nowN → (s.pwr.shed = 3 → s.pwr.uvRails = []) →
      ∃ t, exec (.shedStageClear true) s = .next t ∧ t.pwr.shed = s.pwr.shed - 1) ∧
    (∀ c, s.sun.recov = none → s.sun.parked = false →
      ∃ t, exec (.undervoltageFatal c) s = .next t ∧ s.recovers t .cold ∧ t.stopped ∧ t.mem.cells = [])

/-- R446 to R451, R462, R463: a request for Doze or Rest begins the entry, one for Doze that a rule forbids is refused with its
reason; the steps of entry and exit follow; a wake aborts the entry before its second step has finished and ends Doze; ACTIVE
ends Doze and Rest; a shut-down's end lets a held enable act. Choices of the model that it rests on: log entry 53. -/
def Obligations.DozeAndRestFollowTheirSteps : Prop :=
  ∀ (s : State), s.sized →
    (∀ o, s.mayWrite o 0x2_0004 = true → s.pwr.state = .active →
      (s.refuser false false = none → ∃ t, exec (.dozeRequest o) s = .next t ∧ t.pwr.state = .enterDoze ∧ t.pwr.step = 1) ∧
      (s.refuser true false = none → ∃ t, exec (.restRequest o) s = .next t ∧ t.pwr.state = .enterRest ∧ t.pwr.step = 1) ∧
      (∀ k i, s.refuser false false = some (k, i) → ∃ t, exec (.dozeRequest o) s = .next t ∧ t.pwr.state = .active ∧
        t.pwr.refuse = BitVec.ofNat 32 (i * 2 ^ 16 + k * 2 ^ 12 + 2 ^ 8))) ∧
    (∀ o, s.mayWrite o 0x2_0004 = true → s.therm.tripPin = false →
      (s.pwr.state = .doze → ∃ t, exec (.activeRequest o) s = .next t ∧ t.pwr.state = .leaveDoze) ∧
      (s.pwr.state = .rest → ∃ t, exec (.activeRequest o) s = .next t ∧ t.pwr.state = .leaveRest)) ∧
    (∀ w, s.wakeOn w = true → (s.pwr.state = .doze → ∃ t, exec (.wake w) s = .next t ∧ t.pwr.state = .leaveDoze ∧ t.mem = s.mem) ∧
      (s.entering = true → s.pwr.step < 2 → ∃ t, exec (.wake w) s = .next t ∧ t.pwr.state = .active ∧ t.pwr.refuse.getLsbD 0 = true)) ∧
    ((s.proc 1).runs = true → s.entering = true →
      (s.pwr.step = 1 → s.refuser (s.pwr.state == .enterRest) s.pwr.byGroup = none →
        ∃ t, exec .dozeEntryStep s = .next t ∧ t.pwr.step = 2 ∧ ∀ k ∈ t.clusters, k.issueHeld = true) ∧
      (s.pwr.step = 2 → ∃ t, exec .dozeEntryStep s = .next t ∧ t.pwr.step = 3 ∧ ∀ k ∈ t.clusters, k.switchOff = true) ∧
      (s.pwr.step = 3 → ∃ t, exec .dozeEntryStep s = .next t ∧ t.pwr.step = 4 ∧ ∀ h ∈ t.hbms, h.selfRefresh = h.trained) ∧
      (s.pwr.step = 4 → ∃ t, exec .dozeEntryStep s = .next t ∧ t.pwr.step = 5 ∧
        ∀ n : Fin 24, (s.link n).state = .up → (s.link n).through = none → (s.link n).evDue = [] → (s.link n).sendQ = [] →
          (s.link n).replay.length < 1024 → (t.link n).state = .keepalive) ∧
      (s.pwr.step = 5 → s.pwr.coreMv = 620 → s.pwr.state = .enterDoze → HeldFunction.clusterSwitch ∉ s.pwr.enabling →
        ∃ t, exec .dozeEntryStep s = .next t ∧ t.pwr.state = .doze)) ∧
    (s.entering = true → s.pwr.step = 2 → s.pwr.drainT + 100000 ≤ s.nowN → ∃ t, exec .drainAbandon s = .next t ∧ t.pwr.state = .active ∧ t.pwr.refuse.getLsbD 0 = true) ∧
    ((s.proc 1).runs = true → s.pwr.state = .leaveDoze →
      (s.pwr.step = 0 → ∃ t, exec .dozeExitStep s = .next t ∧ t.pwr.step = 1) ∧
      (s.pwr.step = 1 → s.pwr.clusterOn < 8 → ∃ t, exec .dozeExitStep s = .next t ∧ t.pwr.clusterOn = s.pwr.clusterOn + 1 ∧
        (t.cluster s.pwr.clusterOn).switchOff = false) ∧
      (2 ≤ s.pwr.step → ∃ t, exec .dozeExitStep s = .next t ∧ t.pwr.state = .active ∧ ∀ k ∈ t.clusters, k.issueHeld = false)) ∧
    ((s.proc 1).runs = true → s.pwr.state = .enterRest →
      (s.pwr.step = 6 → ∃ t, exec .restEntryStep s = .next t ∧ t.pwr.step = 7 ∧
        ∀ n : Fin 24, (s.link n).state ≠ .disabled → (t.link n).state = .disabled) ∧
      (s.pwr.step = 7 → ∃ t, exec .restEntryStep s = .next t ∧ t.pwr.step = 8 ∧ ∀ i, 2 ≤ i → (t.proc i).runs = false) ∧
      (s.pwr.step = 8 → ∃ t, exec .restEntryStep s = .next t ∧ t.pwr.step = 9 ∧ Output.regulator .runA 0 ∈ t.out ∧ Output.regulator .runH 0 ∈ t.out)) ∧
    (∀ f, f ∈ s.pwr.shutting →
      (∀ n, f = .rake n → ∃ t, exec (.shutdownComplete f) s = .next t ∧ f ∉ t.pwr.shutting) ∧
      (∀ n, f = .runner n → ∃ t, exec (.shutdownComplete f) s = .next t ∧ f ∉ t.pwr.shutting ∧
        (t.link n).state = if f ∈ s.pwr.enabling ∧ s.linkOn n = true then .detect else .disabled) ∧
      (f = .runnerRails → s.pwr.state = .enterRest → s.pwr.step = 9 → s.pwr.reqs = [] → f ∉ s.pwr.enabling →
        ∃ t, exec (.shutdownComplete f) s = .next t ∧ t.pwr.state = .rest ∧ t.stopped))


/-! ### Hangs, resets, recovery -/

/-- R495, R496, R385, R466, R505: a unit judged hung is reset, SUN_EVENT.HANG set; a burst gap is reported once and resets
nothing; a mismatch of the Sundial's counters leads to a device cold reset. Choices of the model that it rests on: log entry 49. -/
def Obligations.HangsAreTaken : Prop :=
  ∀ s : State, s.sized → s.judges = true → s.sun.recov = none →
    (∀ k : Fin 128, s.replaying (k.val / 16) = false → (s.core k).resetting = false → s.coreWork k = true →
      s.coreProg k + s.window (.core k) ≤ s.nowN →
      ∃ t, exec (.coreHang k) s = .next t ∧ s.recovers t (.core k) ∧ t.sun.event.getLsbD 0 = true ∧ (t.core k).resetting = true) ∧
    (∀ n : Fin 8, s.replaying n = false → s.clusterUp n = true → s.clusterWork n = true →
      (s.cluster n).progT + s.window (.cluster n) ≤ s.nowN →
      ∃ t, exec (.clusterHang n) s = .next t ∧ s.recovers t (.cluster n) ∧ t.sun.event.getLsbD 0 = true ∧ (t.cluster n).resetting = true) ∧
    (∀ n : Fin 24, (s.link n).state.live = true → (s.link n).replay ≠ [] → (s.link n).ackProgT + s.window (.port n) ≤ s.nowN →
      ∃ t, exec (.runnerHang n) s = .next t ∧ s.recovers t (.port n) ∧ t.sun.event.getLsbD 0 = true ∧
        (t.link n).state = .down ∧ (t.link n).cause = 6) ∧
    (∀ n : Fin 8, (s.hbm n).prnReset = false → (s.prNext n s.pruneQ []).isSome = true →
      (s.hbm n).prnProgT + s.window (.pruner n) ≤ s.nowN →
      ∃ t, exec (.prunerHang n) s = .next t ∧ s.recovers t (.pruner n) ∧ t.sun.event.getLsbD 0 = true ∧ (t.hbm n).prnReset = true) ∧
    (∀ (c : Fin 64) idx o, s.op? c idx = some o → waitsHost o = true → o.bytes ≠ [] → o.gapSaid = false → o.progT + 1000000000 ≤ s.nowN →
      ∃ t q, exec (.burstGap c idx) s = .next t ∧ t.sun.event.getLsbD 1 = true ∧ t.sun.recov = none ∧ t.mem = s.mem ∧
        t.op? c idx = some q ∧ q.gapSaid = true) ∧
    exec (.sundialSelfCheck false) s = .next s ∧
    (∃ t, exec (.sundialSelfCheck true) s = .next t ∧ s.recovers t .cold ∧ t.stopped ∧ t.sun.event.getLsbD 5 = true) ∧
    (∀ p d, (s.proc (procNum p)).runs = true → (s.proc (procNum p)).beatT + 20000000 ≤ s.nowN → s.fw.phase ≠ phRunning → s.fw.phase ≠ phTrial →
      (∀ x, (s.proc (procNum p)).lastRun = some x → x + 1000000000 ≤ s.nowN) →
      ∃ t, exec (.processorSilent p d) s = .next t ∧ s.recovers t (.proc p) ∧ t.sun.event.getLsbD 0 = true ∧
        (t.proc (procNum p)).runs = false)

/-- R500, R501, R432: a reset with no recovery running begins at once: the unit is in reset, its core serves no space; a device
reset takes everything outside the always-on domain to Stage 0, a warm one keeping HBM that has been trained. Choices of the
model that it rests on: log entry 48. -/
def Obligations.ResetsBegin : Prop :=
  ∀ s : State, s.sized → s.sun.recov = none →
    (∀ k : Fin 128, ∃ t, exec (.coreReset k) s = .next t ∧ s.recovers t (.core k) ∧ (t.core k).resetting = true ∧ (t.core k).bound = none) ∧
    (∀ n : Fin 8, ∃ t, exec (.clusterReset n) s = .next t ∧ s.recovers t (.cluster n) ∧ (t.cluster n).resetting = true ∧
      ∀ c : Fin 16, (t.core (16 * n.val + c.val)).resetting = true ∧ (t.core (16 * n.val + c.val)).bound = none) ∧
    (∀ n : Fin 24, ∃ t, exec (.portReset n) s = .next t ∧ s.recovers t (.port n) ∧ (t.link n).state = .down ∧ (t.link n).cause = 6) ∧
    (∀ n : Fin 8, ∃ t, exec (.prunerReset n) s = .next t ∧ s.recovers t (.pruner n) ∧ (t.hbm n).prnReset = true) ∧
    (s.sun.parked = false → ∀ cause,
      (∃ t, exec (.deviceWarmReset cause) s = .next t ∧ s.recovers t s.warmUnit ∧ t.stopped ∧ t.start.resetWhy = 3 ∧
        (s.ops = [] → s.start.trainedOnce = true → ∀ a, a < hbmEnd → t.mem.byte a = s.mem.byte a)) ∧
      (∃ t, exec (.deviceColdReset cause) s = .next t ∧ s.recovers t .cold ∧ t.stopped ∧ t.start.resetWhy = 3 ∧ t.mem.cells = []))

/-- R500, R502 to R505, R507: a complete reset ends its recovery and gives the unit back; one that runs out of its window
escalates one level, the fourth time within 10 minutes parks the device; a fault of a unit that the running reset does not cover
waits; the end of a suspect's replay lets issue go on, or quarantines the context and resets the cluster. Choices of the model
that it rests on: log entries 11, 48. -/
def Obligations.RecoveriesEnd : Prop :=
  ∀ s : State, s.sized →
    (∀ r, s.sun.recov = some r →
      (∀ fails, s.sun.queue = [] → s.resetReached r.unit = true →
        ∃ t, exec (.resetComplete r.unit fails) s = .next t ∧ t.sun.recov = none ∧
          (∀ k, r.unit = .core k → fails = [] → (t.core k).resetting = false) ∧ (∀ n, r.unit = .cluster n → (t.cluster n).resetting = false) ∧
          (∀ n, r.unit = .pruner n → (t.hbm n).prnReset = false)) ∧
      (s.sun.parked = false → r.at_ + s.window r.unit ≤ s.nowN →
        (∀ k, r.unit = .core k → s.recentEsc.length < 3 →
          ∃ t, exec (.resetWindowExpiry r.unit) s = .next t ∧ t.sun.event.getLsbD 2 = true ∧
            t.sun.recov = some { unit := .cluster ⟨k.val / 16, by omega⟩, at_ := s.nowN, esc := true }) ∧
        (s.resetReached r.unit = false → 3 ≤ s.recentEsc.length →
          ∃ t, exec (.resetWindowExpiry r.unit) s = .next t ∧ t.sun.parked = true ∧ t.start.halted = true ∧ t.sun.recov = none ∧ t.stopped)) ∧
      (∀ u, covers r.unit u = false → u ≠ .proc .dmp →
        ∃ t, exec (.secondFault (.unit u)) s = .next t ∧ t.sun.recov = some r ∧ t.sun.queue = s.sun.queue ++ [FaultSite.unit u] ∧
          t.sun.event.getLsbD 4 = true ∧ t.mem = s.mem)) ∧
    (∀ (n : Fin 8) rp c, s.sun.replay = some rp → rp.cluster = n.val → rp.ctx = some c →
      (rp.rest = [] →
        ((∀ o ∈ s.ops, o.ctx = c → o.rflags.getLsbD 5 = false) →
          ∃ t, exec (.suspectReplayEnd n .completed) s = .next t ∧ t.sun.replay = none ∧ (t.cluster n).issueHeld = false) ∧
        (rp.at_ + 100000000 ≤ s.nowN →
          ∃ t, exec (.suspectReplayEnd n .elapsed) s = .next t ∧ t.sun.replay = none ∧ (t.cluster n).issueHeld = false)) ∧
      (∀ o ∈ s.ops, o.ctx = c → o.rflags.getLsbD 5 = true → s.sun.recov = none → rp.at_ + 10000000 ≤ s.nowN →
        ∃ t, exec (.suspectReplayEnd n .hang) s = .next t ∧ s.recovers t (.cluster n) ∧ t.ended c ∧ t.sun.event.getLsbD 3 = true))

/-- R465, R483, R484, R487: a processor that crashes stands still, with one dump more, until it restarts from its copy; a copy
that fails its digest is an uncorrected-fatal error. Choices of the model that it rests on: log entry 61. -/
def Obligations.ProcessorsCrashAndRestart : Prop :=
  ∀ (s : State) (p : Proc),
    (∀ cause body, cause ≠ CrashCause.inHandler → (s.proc (procNum p)).runs = true → s.sun.recov = none →
      s.fw.phase ≠ phRunning → s.fw.phase ≠ phTrial → (∀ x, (s.proc (procNum p)).lastRun = some x → x + 1000000000 ≤ s.nowN) →
      ∃ t, exec (.processorCrash p cause body) s = .next t ∧ s.recovers t (.proc p) ∧ (t.proc (procNum p)).runs = false ∧
        t.fw.dumpNum = s.fw.dumpNum + 1 ∧ t.mem = s.mem) ∧
    (∀ r q, s.sun.recov = some r → r.unit = .proc p → s.fw.procs[procNum p]? = some q → q.runs = false →
      (s.mbx.waitSec = none → ∃ t q', exec (.processorRestart p true) s = .next t ∧ t.fw.procs[procNum p]? = some q' ∧ q'.runs = true ∧
        q'.lastRun = some s.nowN) ∧
      (s.sun.parked = false → ∃ t, exec (.processorRestart p false) s = .next t ∧ s.recovers t s.warmUnit ∧ t.stopped ∧
        t.start.resetWhy = 3))

/-! ### Group time -/

/-- R54, R56, R57, R319: a member asks its sync parent every 1 ms; a LOCKED member without an exchange for 5 ms is in HOLDOVER,
and takes a fallback parent where there is one, while the manager stays as it is; it returns to its own parent once that link
has been UP for 1 s. Choices of the model that it rests on: log entry 47. -/
def Obligations.TimeSyncFollowsItsParent : Prop :=
  ∀ s : State,
    (s.syncs = true → s.time.lastReq + 1000000 ≤ s.nowN →
      (∀ n, s.syncPort = some n → ∃ t, exec .syncInterval s = .next t ∧ t.mem = s.mem ∧
        t.time = { s.time with lastReq := s.nowN, t1 := some (n, s.time.now), port := some n, refChip := some (s.link n).peerChip } ∧
        ((s.link n).through = none → (s.link n).replay.length < 1024 → Output.event n (mkEvent 0x01 (List.replicate 7 0 ++ bytesOf 8 s.nowN)) ∈ t.out)) ∧
      (s.syncPort = none → exec .syncInterval s = .next { s with time := { s.time with lastReq := s.nowN, t1 := none } })) ∧
    (s.syncs = true → s.time.sync = .locked → s.time.lastExch + 5000000 ≤ s.nowN →
      ∃ t, exec .holdoverEntry s = .next t ∧ t.time.sync = .holdover ∧ t = { s with time := t.time } ∧
        ∀ p, s.fallbackPort s.parentInUse = some p → t.time.port = some p) ∧
    (s.syncs = false → exec .holdoverEntry s = .next s) ∧
    (∀ n, s.parentPort = some n → s.syncs = true → (s.link n).state = .up → (s.link n).upT + 1000000000 ≤ s.nowN → s.time.port ≠ some n →
      exec .syncParentReturn s = .next { s with time := { s.time with port := some n, refChip := some (s.link n).peerChip, t1 := none } })

/-! ### Links -/

/-- R307, R315 to R318, R326 to R329: what each event of the training sequence does to a link's state. Choices of the model that
it rests on: log entries 42, 63. -/
def Obligations.LinksFollowTheirEvents : Prop :=
  ∀ (s : State) (n : Fin 24), s.sized →
    let l := s.link n
    (l.state = .detect → ∃ t, exec (.signalDetected n) s = .next t ∧ t.link n = { l with state := .train } ∧ t = { s with links := t.links } ∧
      ∀ k, k ≠ n.val → t.link k = s.link k) ∧
    (∀ lanes, l.state = .train →
      (∀ use, lanePair lanes = some use → (use = 0xF ∨ s.allowX2 n = true) → ∃ t, exec (.trainDone n lanes) s = .next t ∧
        t.link n = { l with state := .align, lanesGood := lanes, width2 := use != 0xF }) ∧
      (lanePair lanes = none ∨ lanes ≠ 0xF ∧ s.allowX2 n = false → ∃ t, exec (.trainDone n lanes) s = .next t ∧
        (t.link n).state = .down ∧ (t.link n).cause = 4)) ∧
    (l.state = .align → ∃ t, exec (.alignDone n) s = .next t ∧ (t.link n).state = .negotiate ∧ (t.link n).rxSeq = 0 ∧
      (l.through = none → l.replay.length < 1024 → Output.event n (s.ident n) ∈ t.out)) ∧
    (∀ lane : Fin 4, l.state = .up ∨ l.state = .keepalive →
      ∃ t, exec (.laneFail n lane) s = .next t ∧ (t.link n).lanesGood = l.lanesGood &&& ~~~(1#4 <<< lane.val) ∧
        (s.allowX2 n = true → (t.link n).state = .retrain) ∧ (s.allowX2 n = false → (t.link n).state = .down ∧ (t.link n).cause = 5)) ∧
    (∀ lanes, l.state = .retrain ∨ l.state = .up →
      (∀ use, lanePair (lanes &&& l.lanesGood) = some use → (use = 0xF ∨ s.allowX2 n = true) →
        ∃ t, exec (.retrainDone n lanes) s = .next t ∧ (t.link n).state = .up ∧ (t.link n).width2 = (l.width2 || use != 0xF)) ∧
      (lanePair (lanes &&& l.lanesGood) = none → ∃ t, exec (.retrainDone n lanes) s = .next t ∧ (t.link n).state = .down ∧ (t.link n).cause = 5)) ∧
    (l.state.live = true → ∃ t, exec (.lossOfSignal n) s = .next t ∧ (t.link n).state = .down ∧ (t.link n).cause = 3) ∧
    (l.state = .up ∨ l.state = .keepalive ∨ l.state = .retrain → s.follows → s.group.selfQ = [] →
      ∃ t, exec (.resetNotice n) s = .next t ∧ (t.link n).state = .down ∧ (t.link n).cause = 2) ∧
    (l.state = .down → s.linkOn n = true → s.runref[n.val / 12]? = some true → l.downT + 1000000 ≤ s.nowN →
      ∃ t, exec (.linkDownRestart n) s = .next t ∧ (t.link n).state = .detect ∧ t = { s with links := t.links }) ∧
    (l.state = .keepalive →
      (s.pwr.shed < 6 → ∃ t, exec (.wakeFrame n) s = .next t ∧ (t.link n).state = .up) ∧
      (6 ≤ s.pwr.shed → s.wakeOn (.runner n) = true → exec (.wakeFrame n) s = .next { s with pwr := { s.pwr with runnerWake := some n.val } })) ∧
    (∀ k h, l.through = some k → l.holdT = some h → h + 5000000 ≤ s.nowN →
      ∃ t, exec (.forwardHoldTimeout n) s = .next t ∧ (t.link n).through ≠ some k)

/-- R300 to R306, R326: a flit that fails its check is not accepted and is answered with one NAK; a hold flit is accepted alone;
a stomped flit ends the open message; a good flit is what it spells; a control flit acknowledges; held flits are sent again, the
16th time without progress in RETRAIN; the acknowledgement that is due goes out. Choices of the model that it rests on: log
entries 42, 63. -/
def Obligations.FlitsAreHandled : Prop :=
  ∀ (s : State) (n : Fin 24), s.sized →
    let l := s.link n
    (∀ flit : List Byte, l.state.hears = true →
      let body := flit.take 252
      let crc := fieldAt flit 252 4
      let want := flitCrc body l.rxSeq
      (flit.length ≠ 256 ∨ crc ≠ want ∧ crc ≠ want ^^^ holdMark ∧ crc ≠ want ^^^ stompMark →
        ∃ t, exec (.receiveFlit n flit) s = .next t ∧ (t.link n).rxSeq = l.rxSeq ∧ (t.link n).nakSent = true ∧ t.mem = s.mem) ∧
      (flit.length = 256 → crc = want ^^^ holdMark →
        ∃ t, exec (.receiveFlit n flit) s = .next t ∧ (t.link n).rxSeq = l.rxSeq + 1 ∧ (t.link n).rx = l.rx ∧ t.mem = s.mem) ∧
      (flit.length = 256 → crc = want ^^^ stompMark → l.rx.isSome = true →
        ∃ t, exec (.receiveFlit n flit) s = .next t ∧ (t.link n).rxSeq = l.rxSeq + 1 ∧ (t.link n).rx = none ∧ t.mem = s.mem) ∧
      (flit.length = 256 → crc = want → l.rx = none →
        (fieldAt body 0 1 % 16 = 0 → exec (.receiveFlit n flit) s = exec (.controlFlit n (controlOf body)) (s.fecFixed n)) ∧
        (∀ m len, fieldAt body 0 1 % 16 = 1 → msgOf body = (m, len) → len ≤ 164 → m = asOp opWrite m →
          exec (.receiveFlit n flit) s = exec (.write n m) (s.fecFixed n)))) ∧
    (l.state.hears = true → ∃ t, exec (.receiveFlit n []) s = .next t ∧ (t.link n).rxSeq = l.rxSeq ∧ (t.link n).nakSent = true ∧
      t.counter (blkLink n) 0x05 = satAt max64 (s.counter (blkLink n) 0x05 + 1)) ∧
    (∀ ctl, l.state.hears = true → l.rx = none → ctl.events = [] → ctl.nak = false →
      ∃ t, exec (.controlFlit n ctl) s = .next t ∧ (t.link n).rxSeq = l.rxSeq + 1 ∧ (t.link n).nakSent = false ∧
        (t.link n).ackedSeq = later l.ackedSeq ctl.ackSeq ∧ t.mem = s.mem) ∧
    (l.state = .up ∨ l.state = .negotiate → l.replay ≠ [] → l.ackProgT + 4000 ≤ s.nowN →
      (l.noProg < 15 → ∃ t, exec (.replayTimeout n) s = .next t ∧ t.out = s.out ++ l.replay.map (Output.flit n) ∧
        (t.link n).noProg = l.noProg + 1 ∧ (t.link n).state = l.state) ∧
      (15 ≤ l.noProg → l.state = .up → ∃ t, exec (.replayTimeout n) s = .next t ∧ (t.link n).state = .retrain)) ∧
    (l.state = .up → 0 < l.sinceAck → l.lastAckT + 1000 ≤ s.nowN → l.through = none → l.replay.length < 1024 →
      ∃ t, exec (.ackTimer n) s = .next t ∧ (t.link n).sinceAck = 0 ∧ (t.link n).lastAckT = s.nowN ∧
        ∃ rest, t.out = s.out ++ .flit n { seq := l.txSeq, bytes := sealFlit (l.controlBody false []) l.txSeq 0 } :: rest)

/-! ### Messages between devices -/

/-- R269 to R271, R285, R291, R311 to R313, R324, R607: what a home does with requests, and a sender with their answers. Choices
of the model that it rests on: log entries 22, 42, 43. -/
def Obligations.RemoteMessagesAct : Prop :=
  ∀ (s : State) (n : Fin 24) (m : Msg), s.sized → s.mem.wf = true → s.takesMsg n m →
    let a := m.addr.toNat
    (∀ c x, s.jobCtx m.job = some (c, x) → m.poison = 0 →
      (∃ g ∈ x.grants, g.id = m.opword ∧ g.chip = m.src ∧ g.write = true ∧ g.base ≤ a ∧ a + m.data.length ≤ g.base + g.len) →
      s.retiredHole a m.data.length = none →
      ∃ t, exec (.write n m) s = .next t ∧ t.mem.read a m.data.length = m.data ∧
        ∀ b, (b < a ∨ a + m.data.length ≤ b) → t.mem.byte b = s.mem.byte b) ∧
    (∃ t, exec (.writeAck n m) s = .next t ∧
      ∀ p ∈ t.posted, p.chip = m.src → p.lost = false → m.opword.toNat ≤ (m.tag - p.tag).toNat) ∧
    (∀ p, s.route m.src = some p → 0 < m.opword.toNat → m.opword.toNat ≤ 16384 → (s.grantFor m false a m.opword.toNat).isSome = true →
      ∃ t r, exec (.readReq n m) s = .next t ∧ t.mem = s.mem ∧ t.sent p r ∧ r.op = opReadResp ∧ r.dst = m.src ∧ r.tag = m.tag ∧
        (s.retiredHole a m.opword.toNat = none → r.data = s.bytesAt a m.opword.toNat)) ∧
    (∀ o r x, s.opAwaiting 0x20 m.tag = some o → sideChip o 0 = m.src → s.dmaHole o = none →
      o.reads.find? (fun r => r.tag == m.tag) = some r → s.ctx o.ctx = some x → o.parts = [] → m.data ≠ [] →
      r.off + m.opword.toNat = o.bytes.length →
      ∃ t, exec (.readResp n m) s = .next t ∧
        ∀ y, t.ctx o.ctx = some y → y.status = x.status → ∃ q, t.op? o.ctx o.idx = some q ∧ q.bytes = o.bytes ++ m.data) ∧
    (s.remoteFault m.job [pmRemoteWrite] a 8 = none →
      (fieldAt m.data 0 1 ≠ 1 → ∃ t, exec (.remoteSignal n m) s = .next t ∧ t.mem.read a 8 = bytesOf 8 (fieldAt m.data 1 8) ∧
        ∀ b, (b < a ∨ a + 8 ≤ b) → t.mem.byte b = s.mem.byte b) ∧
      (fieldAt m.data 0 1 = 1 → s.poisonAt a 8 = [] → ∃ t, exec (.remoteSignal n m) s = .next t ∧
        t.mem.read a 8 = bytesOf 8 ((natOf (s.bytesAt a 8) + fieldAt m.data 1 8) % 2 ^ 64))) ∧
    (∀ o, s.opAwaiting 0x04 m.tag = some o → sideChip o 0 = m.src → ∃ t, exec (.signalAck n m) s = .next t ∧ t.doneWith o.ctx o.idx) ∧
    (∀ c x, s.jobCtx m.job = some (c, x) →
      s.remoteFault m.job ((if bitOf (fieldAt m.data 8 1) 0 then [pmRemoteRead] else []) ++ (if bitOf (fieldAt m.data 8 1) 1 then [pmRemoteWrite] else []))
        a (fieldAt m.data 0 8) = none →
      ∃ t y g, exec (.grantReq n m) s = .next t ∧ t.ctx c = some y ∧ g ∈ y.grants ∧ g.chip = m.src ∧ g.tag = m.tag ∧ g.base = a ∧
        g.len = fieldAt m.data 0 8 ∧ g.write = bitOf (fieldAt m.data 8 1) 1) ∧
    (∀ o, s.opAsking m.tag = some o → sideChip o (((s.remoteSides o).find? (fun w => !o.hasGrant w)).getD 0) = m.src → m.opword = 0 →
      ∃ t, exec (.grantResp n m) s = .next t ∧ t.doneWith o.ctx o.idx) ∧
    (∀ p, s.opAsking m.tag = none → m.opword ≠ 0 → s.route m.src = some p →
      ∃ t r, exec (.grantResp n m) s = .next t ∧ t.sent p r ∧ r.op = opGrantRelease ∧ r.opword = m.opword) ∧
    (∃ t, exec (.grantRelease n m) s = .next t ∧ ∀ c y, t.ctx c = some y → ∀ g ∈ y.grants, g.chip = m.src →
      (m.opword = 0 → g.tag ≠ m.tag) ∧ (m.opword ≠ 0 → g.id ≠ m.opword)) ∧
    (∀ o, m.opword.toNat % 256 = opSignal → s.opAwaiting 0x04 (BitVec.ofNat 16 (m.opword.toNat / 65536)) = some o →
      ∃ t, exec (.routeErr n m) s = .next t ∧ t.doneWith o.ctx o.idx) ∧
    (∀ (c : Fin 64) idx o k tag t0, s.op? c idx = some o → o.phase = .grantWait k tag t0 → t0 + 50000000 ≤ s.nowN → s.mayFinish o = true →
      ∃ t, exec (.grantTimeout c idx) s = .next t ∧ t.doneWith c idx)

/-- R338, R343, R354, R357, R358, R360: a collective message that comes before its command is kept (all but an Ordered partial
that this member has added to already); a segment that comes while the link adders are paused waits; else the member does with
its segment what its place gives it to do, and has that duty no more; ABORT ends its collective at once. Choices of the model
that it rests on: log entry 20. -/
def Obligations.CollectiveMessagesAct : Prop :=
  ∀ (s : State) (n : Fin 24) (m : Msg), s.sized → s.takesMsg n m →
    (∀ i op, (i, op) ∈ [(Instr.coll n m, opColl), (Instr.collCheck n m, opCollCheck)] →
      let h := headOf (asOp op m)
      (4 ≤ s.pwr.shed → h.has cfAbort = false → ∃ t, exec i s = .next t ∧ t.adderQ = s.adderQ ++ [(n.val, asOp op m)] ∧ t.mem = s.mem) ∧
      (∀ c o e, h.has cfAbort = true → s.coll? h.set h.tag = some c → s.op? c.ctx c.idx = some o → s.collSet c.setId = some e →
        ∃ t, exec i s = .next t ∧ t.gone c.ctx c.idx ∧ ∀ q ∈ t.colls, q.is c = false) ∧
      (s.pwr.shed < 4 → s.exchangesIdle → s.coll? h.set h.tag = none → s.collOver.contains (h.set, h.tag) = false → s.relayTo (asOp op m) = none →
        ∃ t, exec i s = .next t ∧ t.collHeld = s.collHeld ++ [(n.val, asOp op m)] ∧ t.mem = s.mem) ∧
      (∀ c o e p, s.pwr.shed < 4 → s.exchangesIdle → s.coll? h.set h.tag = some c → c.begun = true → s.colls.filter (fun q => q.is c) = [c] → s.op? c.ctx c.idx = some o →
        s.collSet c.setId = some e → h.has cfAbort = false → h.crc = paramCrc o.desc →
        (collPlan o.desc e).find? (fun p => p.index == m.opword.toNat) = some p →
        (h.has cfGather = true → ∃ t, exec i s = .next t ∧ ∀ q ∈ t.colls, q.is c = true → (2, p.index) ∉ q.left) ∧
        (h.has cfGather = false → op = opCollCheck → (segOf (kXport o.desc) p.elems (asOp op m)).contrib = e.rank s.group.self →
          ∃ t, exec i s = .next t ∧ ∀ q ∈ t.colls, q.is c = true → (1, p.index) ∉ q.left) ∧
        (h.has cfGather = false → op = opColl → ordered o.desc p = false → p.owner ≠ e.rank s.group.self →
          ∃ t, exec i s = .next t ∧ ∀ q ∈ t.colls, q.is c = true → (0, p.index) ∉ q.left)))


/-! ### Groups -/

/-- R388 to R393, R531 to R533: what the messages of formation and of authentication do: a member that passes is admitted, one
of another configuration refused; a member is admitted, refused (and then stays outside), and formed; challenges are answered,
responses judged, verdicts counted. Choices of the model that it rests on: log entries 7, 23, 44, 55. -/
def Obligations.GroupsForm : Prop :=
  ∀ (s : State) (n : Fin 24) (m : Msg), s.sized →
    (s.takesGroup n m →
      (∀ e e2 c, s.isManager = true → s.group.cfg = some c → m.src ≠ s.group.self → s.member? m.src = some e → e.admitted = false → e.passed = true →
        (m.data.drop 10).take 64 = bytesOf 64 c.digest.toNat → fieldAt m.data 74 4 = c.cfgSeq.toNat → fieldAt m.data 8 1 = s.fw.ifMajor →
        e2 ∈ s.group.members → e2.chip ≠ m.src → e2.admitted = false →
        ∃ t q, exec (.join n m) s = .next t ∧ t.member? m.src = some q ∧ q.admitted = true ∧ q.serial = BitVec.ofNat 64 (fieldAt m.data 0 8) ∧
          t.group.formed = s.group.formed) ∧
      (∀ c p, s.isManager = true → s.group.cfg = some c → m.src ≠ s.group.self → s.route m.src = some p →
        (m.data.drop 10).take 64 ≠ bytesOf 64 c.digest.toNat →
        ∃ t r, exec (.join n m) s = .next t ∧ t.group.members = s.group.members ∧ t.sent p r ∧ Msg.gtype r = gtRefuse ∧ r.data = [1]) ∧
      (s.follows → s.group.state = .joining → m.src ≠ s.group.self →
        ∃ t, exec (.admitMsg n m) s = .next t ∧ t.group.state = .admitted ∧ t.group.manager = m.src ∧ (t.link n).admitted = true ∧
          t.group.commitE = BitVec.ofNat 32 (fieldAt m.data 1 4) ∧ t.group.commitS = BitVec.ofNat 32 (fieldAt m.data 5 4)) ∧
      (s.group.state = .refused → ∃ t, exec (.refuse n m) s = .next t ∧ t.group.state = .refused ∧ t.group.reason = s.group.reason) ∧
      (s.follows → m.src = s.group.manager → s.group.state ≠ .refused →
        (fieldAt m.data 0 1 ≠ 6 → ∃ t, exec (.refuse n m) s = .next t ∧ t.group.state = .refused ∧ t.group.reason = fieldAt m.data 0 1 ∧
          t.group.formed = false) ∧
        (fieldAt m.data 0 1 = 6 → ∃ t, exec (.refuse n m) s = .next t ∧ t.group.state = .joining ∧ t.group.formed = false) ∧
        (s.group.state.inGroup = true → ∃ t, exec (.formed n m) s = .next t ∧ t.group.formed = true ∧ t.group.state = .running ∧
          (s.start.stage = 2 → s.start.failCode = 0 → t.start.stage = 3))) ∧
      (∀ e q, s.isManager = true → s.member? m.src = some e → e.admitted = true → s.member? (chipAt m.data 0) = some q → fieldAt m.data 10 1 = 1 →
        ∃ t, exec (.verdict n m) s = .next t ∧ t.member? (chipAt m.data 0) = some { q with passed := true, failed := false } ∧ t.mem = s.mem)) ∧
    (s.follows → s.group.selfQ = [] → (s.proc 2).runs = true → s.group.state = .joining →
      s.group.joinT = 0 ∨ s.group.joinT + 100000000 ≤ s.nowN → ∀ p, s.route s.group.manager = some p →
      ∃ t r, exec .joinRetry s = .next t ∧ t.group.joinT = s.nowN ∧ t.sent p r ∧ Msg.gtype r = gtJoin ∧ r.data = s.joinData) ∧
    (s.opens n → (s.proc 0).runs = true → m.dst = s.group.self →
      (∃ t r, exec (.challenge n m) s = .next t ∧ t.sent n r ∧ r.op = opAttest ∧ r.opword.toNat % 256 = atResponse ∧ t.mem = s.mem) ∧
      (s.follows → (s.link n).nonce.isSome = true → (s.link n).groupHeld = [] →
        ∃ t, exec (.response n m) s = .next t ∧ (t.link n).nonce = none ∧
          ((t.link n).authOk = true ∧ (t.link n).verdict = some (1, 0) ∨
           (t.link n).authOk = false ∧ ∃ k, 1 ≤ k ∧ k ≤ 5 ∧ (t.link n).verdict = some (2, BitVec.ofNat 8 k)))) ∧
    (∀ v p, (s.link n).verdict = some v → (s.link n).admitted = false → (s.link n).verdictT + 100000000 ≤ s.nowN → s.follows →
      s.group.cfg.isSome = true → s.route s.group.manager = some p →
      ∃ t r, exec (.verdictRepeat n) s = .next t ∧ (t.link n).verdictT = s.nowN ∧ t.sent p r ∧ r.op = opAttest ∧
        r.data = verdictData (s.link n).peerChip (s.link n).peerSer v)

/-- R394 to R400, R403, R405, R410, R412, R480: what a group's messages do at the device they are for, once it is in the group;
the copying of a plan's entry, with the epoch as its tag; the reading of a plan's record; the heartbeat. Choices of the model
that it rests on: log entries 23, 55, 56. -/
def Obligations.GroupWorkFollowsItsMessages : Prop :=
  ∀ (s : State) (n : Fin 24) (m : Msg), s.sized →
    (s.takesGroup n m → s.follows → s.group.state.inGroup = true →
      (∀ r c b, m.src = s.group.manager → jobRecords (m.data.length + 1) m.data = [(1, r)] →
        s.createCtx (blockOf (r.take 64)) = .inl (c, b) → cContext (blockOf (r.take 64)) = c → s.frost.phase ≠ .frozen →
        ∃ t y, exec (.job n m) s = .next t ∧ t.ctx c = some y ∧ y.planned = true ∧ y.status = .active ∧ y.sqHead = 0 ∧ y.cqTail = 0) ∧
      (m.src = s.group.manager → s.group.epochRecv.toNat < (planOf m.data).epoch.toNat →
        ∃ t, exec (.plan n m) s = .next t ∧ t.group.epochRecv = (planOf m.data).epoch) ∧
      (m.src ≠ s.group.self → ∃ t, exec (.mgrBeat n m) s = .next t ∧ t.group.manager = m.src ∧ t.group.beatMgr = s.nowN ∧
        t.group.commitE = BitVec.ofNat 32 (fieldAt m.data 8 4) ∧ t.group.commitS = BitVec.ofNat 32 (fieldAt m.data 12 4) ∧ t.mem = s.mem) ∧
      (∀ q o, s.frost.phase ≠ .frozen → s.colls = [q] → s.op? q.ctx q.idx = some o → s.planOp (fun e => e == BitVec.ofNat 32 (fieldAt m.data 0 4)) o = true →
        ∃ t, exec (.withdraw n m) s = .next t ∧ t.colls = [] ∧ t.doneWith q.ctx q.idx) ∧
      (∃ t, exec (.discard n m) s = .next t ∧ (∀ p ∈ t.group.plans, p.epoch.toNat < fieldAt m.data 0 4) ∧
        ∀ e ∈ t.group.epochs, e.epoch.toNat < fieldAt m.data 0 4) ∧
      (fieldAt m.data 0 4 = s.frost.id → s.frost.holders.getLsbD 4 = true → s.group.state = .frosted →
        ∃ t, exec (.thaw n m) s = .next t ∧ t.frost.holders = s.frost.holders &&& 0xF ∧ t.group.state = .waitRejoin) ∧
      (m.src = s.group.manager → ∃ t, exec (.commit n m) s = .next t ∧ t.group.commitE = BitVec.ofNat 32 (fieldAt m.data 0 4) ∧
        t.group.commitS = BitVec.ofNat 32 (fieldAt m.data 4 4) ∧ t.mem = s.mem) ∧
      (m.src ≠ s.group.self → ∃ t, exec (.takeover n m) s = .next t ∧ t.group.manager = m.src ∧ t.group.deputy = none ∧
        t.group.beatMgr = s.nowN ∧ t.group.state = (if s.group.state = .held then .frosted else s.group.state) ∧
        t.group.term = (if termNewer (Msg.term m) s.group.term.toNat = true then BitVec.ofNat 8 (Msg.term m) else s.group.term))) ∧
    (s.takesGroup n m → s.isManager = true →
      (∀ e, s.group.formed = false → s.member? m.src = some e → ∃ t, exec (.heartbeat n m) s = .next t ∧
        t.member? m.src = some { e with recv := BitVec.ofNat 32 (fieldAt m.data 0 4), done := BitVec.ofNat 32 (fieldAt m.data 4 4), beatT := s.nowN }) ∧
      (fieldAt m.data 0 1 = rpTimeOffset → ∃ t, exec (.report n m) s = .next t ∧ t.group.reports = s.group.reports ++ [(mrTime, m.src.toNat)])) ∧
    (s.follows → s.group.selfQ = [] → (s.proc 2).runs = true →
      (∀ p it x, s.group.plans = [p] → p.items[p.item]? = some it → p.item + 1 = p.items.length → it.entries = 1 → p.entry = 0 →
        s.ctx it.ctx = some x → x.planned = true → x.status = .active → (x.sqTail - x.sqHead).toNat < 2 ^ x.sqLog2 →
        s.votes.swap.vote 0 = 0 → s.frost.phase = .running → s.mem.wf = true →
        ∃ t y, exec .planCopyResume s = .next t ∧ t.ctx it.ctx = some y ∧ y.sqTail = x.sqTail + 1 ∧ t.group.plans = [] ∧
          fieldAt (t.mem.read (sqAddr x x.sqTail) 64) 8 4 = p.epoch.toNat) ∧
      (∀ (c : Fin 64) x, s.ctx c = some x → x.planned = true → x.cqHead ≠ x.cqTail →
        ∃ t y, exec (.planRecordRead c) s = .next t ∧ t.mem = s.mem ∧ t.ctx c = some y ∧
          y.cqHead = x.cqHead + (if bitOf (fieldAt (s.mem.read (cqAddr x x.cqHead) 32) 9 1) 1 then 3 else 1)) ∧
      (∀ p, s.group.state.inGroup = true → s.group.beatSent + 10000000 ≤ s.nowN → s.route s.group.manager = some p →
        ∃ t r, exec .heartbeatInterval s = .next t ∧ t.group.beatSent = s.nowN ∧ t.sent p r ∧ Msg.gtype r = gtHeartbeat))

/-- R401, R402, R404, R411: a silent member of a forming group is un-admitted; in a formed group its loss is waited for and
brings a group Frost; the deputy takes over; a member without a manager Frosts itself. Choices of the model that it rests on:
log entry 55. -/
def Obligations.GroupLossesAreMet : Prop :=
  ∀ s : State, (s.proc 2).runs = true → s.group.selfQ = [] → s.frost.phase = .running →
    (∀ chip e, s.isManager = true → s.member? chip = some e → e.admitted = true → chip ≠ s.group.self →
      (e.beatT + 50000000 ≤ s.nowN →
        ∃ t q, exec (.memberLost chip) s = .next t ∧ t.member? chip = some q ∧ q.admitted = false ∧
          (s.group.formed = true → s.group.roll = none → t.group.waiting = s.group.waiting ++ [chip] ∧ t.frost.holders.getLsbD 4 = true ∧
            t.frost.phase = .cutting)) ∧
      (∀ d, e.delayedT = some d → d + 1000000000 ≤ s.nowN →
        ∃ t q, exec (.readyTimeout chip) s = .next t ∧ t.member? chip = some q ∧ q.admitted = false ∧ q.delayedT = none ∧
          (s.group.formed = true → t.group.waiting = s.group.waiting ++ [chip]))) ∧
    (s.group.role = .deputy → s.group.beatMgr + 50000000 ≤ s.nowN →
      ∃ t, exec .deputyTakeover s = .next t ∧ t.group.term = s.group.term + 1 ∧ t.group.role = .manager ∧ t.group.manager = s.group.self ∧
        t.frost.holders.getLsbD 4 = true ∧ t.frost.phase = .cutting) ∧
    (s.group.state.inGroup = true → s.group.state ≠ .held → s.isManager = false → s.group.beatMgr + 100000000 ≤ s.nowN →
      ∃ t, exec .managerLost s = .next t ∧ t.group.state = .held ∧ t.frost.holders.getLsbD 4 = true ∧ t.frost.phase = .cutting ∧
        t.group.reports = s.group.reports ++ [(mrManager, s.group.manager.toNat)])

/-! ### RAS events, votes -/

/-- R251, R254 to R257, R570, R571, R573: the patrol scrub goes on to the next sector; the error check and scrub counts; a
poisoned sector of a context's own structures ends the context; an uncorrectable word of a stationary-operand buffer and a tag
repaired from its other copy are noted; a stalled request is noted; the vote scrub leaves every voted field with three equal
copies of its vote; one flipped copy changes nothing that a unit uses. Choices of the model that it rests on: log entries 8, 10,
64. -/
def Obligations.RasEventsAndVotes : Prop :=
  ∀ s : State, s.shaped →
    (∀ (n : Fin 8) err inner, s.scrubRuns n = true → ∃ t, exec (.patrolScrub n err inner) s = .next t ∧
      ((s.hbm n).scrubSlot < 14 → (t.hbm n).scrubSlot = (s.hbm n).scrubSlot + 1 ∧ (t.hbm n).scrubFrame = (s.hbm n).scrubFrame) ∧
      (14 ≤ (s.hbm n).scrubSlot → (s.hbm n).scrubFrame < 2097151 → (t.hbm n).scrubSlot = 0 ∧ (t.hbm n).scrubFrame = (s.hbm n).scrubFrame + 1)) ∧
    (∀ (n : Fin 8) count new, (s.hbm n).trained = true → ∃ t, exec (.ecsReadout n count new) s = .next t ∧ t.mem = s.mem ∧
      t.counter (blkHbm n) 0x09 = satAt max64 (s.counter (blkHbm n) 0x09 + count) ∧ (new = true → (t.hbm n).errStat.getLsbD 3 = true)) ∧
    (∀ (addr : BitVec 48), isHbm addr.toNat = true → 2 ≤ s.start.stage →
      ∃ t, exec (.sectorPoisoned (.memory addr)) s = .next t ∧
        ∀ c ∈ [addr.toNat / 64 * 64 / 32, addr.toNat / 64 * 64 / 32 + 1].flatMap s.structOwners, t.ended c) ∧
    (∀ (k : Fin 128) pass byte, ∃ t, exec (.sectorPoisoned (.stationary k pass byte)) s = .next t ∧ t.mem = s.mem ∧
      (t.core k).event.getLsbD 3 = true) ∧
    (∀ (n : Fin 8), ∃ t, exec (.sectorPoisoned (.tag n false)) s = .next t ∧ t.mem = s.mem ∧ (t.cluster n).event.getLsbD 4 = true) ∧
    (s.powered .fabric = true → exec .reqStall s = .next { s with regs := { s.regs with trlEvent := s.regs.trlEvent ||| 1 } }) ∧
    (∃ t, exec .voteScrub s = .next t ∧ t.mem = s.mem ∧ ∀ f ∈ votedFields, t.votes.get f = .of (s.voted f)) ∧
    (∀ f x v, s.votes.get f = .of v → ∀ i ∈ [Instr.voteUpset f x 0 0, .voteUpset f 0 x 0, .voteUpset f 0 0 x],
      ∃ t, exec i s = .next t ∧ t = { s with votes := t.votes } ∧ t.voted f = s.voted f)

/-! ### Frames -/

/-- Events of links, clocks, power, the mailbox, the graft and the test ports leave device memory and its caches, every context,
every command that is open, the cores, the collectives, the Pruner queue, the Trug's batches and slots and the outstanding
remote writes as they are. -/
def Obligations.EventsLeaveTheStreams : Prop :=
  ∀ (c : Instr) (s t : State), quietEvent c = true → exec c s = .next t →
    t.mem = s.mem ∧ t.caches = s.caches ∧ t.ctxs = s.ctxs ∧ t.ops = s.ops ∧ t.cores = s.cores ∧ t.colls = s.colls ∧ t.pruneQ = s.pruneQ ∧
    t.batches = s.batches ∧ t.slots = s.slots ∧ t.posted = s.posted

/-- Commands of the streams, their engines and the links' flits leave the time base, the start, the group, security and the
flash, power and temperature, the voted fields, the Sundial, the processors, the mailbox, the tables of ports, routes and sets,
the retirement list, the PCIe port and the wide mailboxes as they are. -/
def Obligations.StreamCommandsLeaveTheControl : Prop :=
  ∀ (c : Instr) (s t : State), streamCommand c = true → exec c s = .next t →
    t.time = s.time ∧ t.start = s.start ∧ t.group = s.group ∧ t.sec = s.sec ∧ t.flash = s.flash ∧ t.pwr = s.pwr ∧ t.therm = s.therm ∧
    t.votes = s.votes ∧ t.sun = s.sun ∧ t.fw = s.fw ∧ t.mbx = s.mbx ∧ t.ports = s.ports ∧ t.routes = s.routes ∧ t.sets = s.sets ∧
    t.retired = s.retired ∧ t.overflow = s.overflow ∧ t.runref = s.runref ∧ t.pcie = s.pcie ∧ t.banks = s.banks
end

