-- ==== Sys2Proof/Laws/Memory.lean ====
section
/-! SUPPORT. Laws of sparse contents and of device memory: what a write makes a read see, and that every operation keeps the
canonical form. -/

namespace Sys2Proof.Machine

/-! ### Sparse contents -/

theorem sparseGet_put {α : Type} [DecidableEq α] (d : α) (l : List (Nat × α)) (a : Nat) (v : α) :
    ∀ lo, sparseWf d lo l = true → ∀ b, sparseGet d (sparsePut d l a v) b = if a = b then v else sparseGet d l b := by
  induction l with
  | nil =>
    intro lo _ b
    by_cases hv : v = d <;> by_cases hb : a = b <;> simp_all [sparsePut, sparseGet]
  | cons e t ih =>
    intro lo h b
    obtain ⟨k, w⟩ := e
    simp only [sparseWf, Bool.and_eq_true, decide_eq_true_eq] at h
    obtain ⟨⟨_, hw⟩, ht⟩ := h
    have below : ∀ x, x ≤ k → sparseGet d t x = d := by
      have gen : ∀ (t : List (Nat × α)) (lo : Nat), sparseWf d lo t = true → ∀ x, x < lo → sparseGet d t x = d := by
        intro t
        induction t with
        | nil => intros; rfl
        | cons e u ihu =>
          intro lo h x hx
          obtain ⟨q, y⟩ := e
          simp only [sparseWf, Bool.and_eq_true, decide_eq_true_eq] at h
          have : q ≠ x := by omega
          simp only [sparseGet, if_neg this]
          exact ihu (q + 1) h.2 x (by omega)
      intro x hx
      exact gen t (k + 1) ht x (by omega)
    simp only [sparsePut]
    by_cases h1 : a < k
    · simp only [if_pos h1]
      by_cases hb : a = b
      · subst hb
        have hk : k ≠ a := by omega
        by_cases hv : v = d
        · simp [hv, sparseGet, hk, below a (by omega)]
        · simp [hv, sparseGet]
      · by_cases hv : v = d <;> simp [hv, sparseGet, hb]
    · simp only [if_neg h1]
      by_cases h2 : a = k
      · subst h2
        by_cases hb : a = b
        · subst hb
          by_cases hv : v = d
          · simp [hv, below a (Nat.le_refl a)]
          · simp [hv, sparseGet]
        · by_cases hv : v = d <;> simp [hv, sparseGet, hb]
      · simp only [if_neg h2, sparseGet]
        by_cases hb : a = b
        · subst hb
          have hk : k ≠ a := by omega
          simp [hk, ih (k + 1) ht a]
        · simp [ih (k + 1) ht b, hb]

theorem sparseWf_mono {α : Type} [DecidableEq α] (d : α) (l : List (Nat × α)) {lo lo' : Nat} (hl : lo' ≤ lo)
    (h : sparseWf d lo l = true) : sparseWf d lo' l = true := by
  cases l with
  | nil => rfl
  | cons e t =>
    obtain ⟨k, w⟩ := e
    simp only [sparseWf, Bool.and_eq_true, decide_eq_true_eq] at h ⊢
    exact ⟨⟨by omega, h.1.2⟩, h.2⟩

theorem sparseWf_put {α : Type} [DecidableEq α] (d : α) (l : List (Nat × α)) (a : Nat) (v : α) :
    ∀ lo, lo ≤ a → sparseWf d lo l = true → sparseWf d lo (sparsePut d l a v) = true := by
  induction l with
  | nil =>
    intro lo ha _
    by_cases hv : v = d <;> simp [sparsePut, sparseWf, hv, ha]
  | cons e t ih =>
    intro lo ha h
    obtain ⟨k, w⟩ := e
    simp only [sparseWf, Bool.and_eq_true, decide_eq_true_eq] at h
    obtain ⟨⟨hk, hw⟩, ht⟩ := h
    simp only [sparsePut]
    by_cases h1 : a < k
    · by_cases hv : v = d
      · simp [h1, hv, sparseWf, hk, hw, ht]
      · simp [h1, hv, sparseWf, ha, hw, ht] <;> omega
    · by_cases h2 : a = k
      · subst h2
        by_cases hv : v = d
        · simpa [hv] using sparseWf_mono d t (by omega) ht
        · simp [hv, sparseWf, ha, ht]
      · simp only [if_neg h1, if_neg h2, sparseWf, Bool.and_eq_true, decide_eq_true_eq]
        exact ⟨⟨hk, hw⟩, ih (k + 1) (by omega) ht⟩

theorem sparseWf_filter {α : Type} [DecidableEq α] (d : α) (p : Nat × α → Bool) (l : List (Nat × α)) :
    ∀ lo, sparseWf d lo l = true → sparseWf d lo (l.filter p) = true := by
  induction l with
  | nil => intros; rfl
  | cons e t ih =>
    intro lo h
    obtain ⟨k, w⟩ := e
    simp only [sparseWf, Bool.and_eq_true, decide_eq_true_eq] at h
    obtain ⟨⟨hk, hw⟩, ht⟩ := h
    by_cases hp : p (k, w) = true
    · simp only [List.filter_cons, hp, if_true, sparseWf, Bool.and_eq_true, decide_eq_true_eq]
      exact ⟨⟨hk, hw⟩, ih (k + 1) ht⟩
    · simpa [List.filter_cons, hp] using sparseWf_mono d _ (by omega) (ih (k + 1) ht)

theorem natWf_mono (l : List Nat) {lo lo' : Nat} (hl : lo' ≤ lo) (h : natWf lo l = true) : natWf lo' l = true := by
  cases l with
  | nil => rfl
  | cons k t =>
    simp only [natWf, Bool.and_eq_true, decide_eq_true_eq] at h ⊢
    exact ⟨by omega, h.2⟩

theorem natWf_put (l : List Nat) (a : Nat) : ∀ lo, lo ≤ a → natWf lo l = true → natWf lo (natPut l a) = true := by
  induction l with
  | nil => intro lo ha _; simp [natPut, natWf, ha]
  | cons k t ih =>
    intro lo ha h
    simp only [natWf, Bool.and_eq_true, decide_eq_true_eq] at h
    simp only [natPut]
    by_cases h1 : a < k
    · simp [h1, natWf, ha, h.2] <;> omega
    · by_cases h2 : a = k
      · subst h2; simp [natWf, ha, h.2]
      · simp only [if_neg h1, if_neg h2, natWf, Bool.and_eq_true, decide_eq_true_eq]
        exact ⟨h.1, ih (k + 1) (by omega) h.2⟩

theorem natWf_drop (l : List Nat) (a : Nat) : ∀ lo, natWf lo l = true → natWf lo (natDrop l a) = true := by
  induction l with
  | nil => intros; rfl
  | cons k t ih =>
    intro lo h
    simp only [natWf, Bool.and_eq_true, decide_eq_true_eq] at h
    simp only [natDrop]
    by_cases h2 : a = k
    · simpa [h2] using natWf_mono t (by omega) h.2
    · simp only [if_neg h2, natWf, Bool.and_eq_true, decide_eq_true_eq]
      exact ⟨h.1, ih (k + 1) h.2⟩

theorem natWf_filter (p : Nat → Bool) (l : List Nat) : ∀ lo, natWf lo l = true → natWf lo (l.filter p) = true := by
  induction l with
  | nil => intros; rfl
  | cons k t ih =>
    intro lo h
    simp only [natWf, Bool.and_eq_true, decide_eq_true_eq] at h
    by_cases hp : p k = true
    · simp only [List.filter_cons, hp, if_true, natWf, Bool.and_eq_true, decide_eq_true_eq]
      exact ⟨h.1, ih (k + 1) h.2⟩
    · simpa [List.filter_cons, hp] using natWf_mono _ (by omega) (ih (k + 1) h.2)

/-! ### Device memory -/

theorem Memory.wf_cells {m : Memory} (h : m.wf = true) : sparseWf emptyByte 0 m.cells = true := by
  simp only [Memory.wf, Bool.and_eq_true] at h; exact h.1

/-- Every operation on memory keeps its canonical form. -/
@[simp] theorem Memory.setByte_wf {m : Memory} (a : Nat) (b : Byte) (h : m.wf = true) : (m.setByte a b).wf = true := by
  simp only [Memory.wf, Bool.and_eq_true] at h ⊢
  exact ⟨sparseWf_put _ _ _ _ 0 (Nat.zero_le a) h.1, h.2⟩

@[simp] theorem Memory.write_wf (bs : List Byte) : ∀ {m : Memory} (a : Nat), m.wf = true → (m.write a bs).wf = true := by
  induction bs with
  | nil => intro m a h; exact h
  | cons b t ih => intro m a h; exact ih (a + 1) (Memory.setByte_wf a b h)

@[simp] theorem Memory.setPoison_wf {m : Memory} (g : Nat) (p : Bool) (h : m.wf = true) : (m.setPoison g p).wf = true := by
  simp only [Memory.wf, Bool.and_eq_true] at h
  cases p <;> simp [Memory.setPoison, Memory.wf, h.1, natWf_put _ _ _ (Nat.zero_le g) h.2, natWf_drop _ g _ h.2]

@[simp] theorem Memory.writePoison_wf {m : Memory} (a n : Nat) (bad : List Nat) (g : Nat) (h : m.wf = true) :
    (m.writePoison a n bad g).wf = true := by
  unfold Memory.writePoison
  repeat' split
  all_goals simp [h]

theorem Memory.foldl_wf {α : Type} (f : Memory → α → Memory) (hf : ∀ m x, m.wf = true → (f m x).wf = true) (l : List α) :
    ∀ {m : Memory}, m.wf = true → (l.foldl f m).wf = true := by
  induction l with
  | nil => intro m h; exact h
  | cons x t ih => intro m h; exact ih (hf m x h)

@[simp] theorem Memory.store_wf {m : Memory} (a : Nat) (bs : List Byte) (bad : List Nat) (h : m.wf = true) :
    (m.store a bs bad).wf = true :=
  Memory.foldl_wf _ (fun _ _ h => Memory.writePoison_wf _ _ _ _ h) _ (Memory.write_wf _ _ h)

@[simp] theorem Memory.filterCells_wf {m : Memory} (p : Host.Cell → Bool) (h : m.wf = true) :
    Memory.wf { m with cells := m.cells.filter p } = true := by
  simp only [Memory.wf, Bool.and_eq_true] at h ⊢
  exact ⟨sparseWf_filter _ p _ 0 h.1, h.2⟩

@[simp] theorem Memory.filterPoison_wf {m : Memory} (p : Nat → Bool) (h : m.wf = true) :
    Memory.wf { m with poison := m.poison.filter p } = true := by
  simp only [Memory.wf, Bool.and_eq_true] at h ⊢
  exact ⟨h.1, natWf_filter p _ 0 h.2⟩

/-- Poison marks do not change the bytes. -/
@[simp] theorem Memory.setPoison_byte (m : Memory) (g : Nat) (p : Bool) (a : Nat) : (m.setPoison g p).byte a = m.byte a := rfl

@[simp] theorem Memory.writePoison_byte (m : Memory) (a n : Nat) (bad : List Nat) (g b : Nat) :
    (m.writePoison a n bad g).byte b = m.byte b := by
  unfold Memory.writePoison
  repeat' split
  all_goals rfl

theorem Memory.foldl_byte {α : Type} (f : Memory → α → Memory) (b : Nat) (hf : ∀ m x, (f m x).byte b = m.byte b) (l : List α) :
    ∀ m : Memory, (l.foldl f m).byte b = m.byte b := by
  induction l with
  | nil => intro m; rfl
  | cons x t ih => intro m; rw [List.foldl_cons, ih, hf]

theorem Memory.store_byte (m : Memory) (a : Nat) (bs : List Byte) (bad : List Nat) (b : Nat) :
    (m.store a bs bad).byte b = (m.write a bs).byte b :=
  Memory.foldl_byte _ b (fun _ _ => Memory.writePoison_byte _ _ _ _ _ _) _ _

theorem Memory.setByte_byte {m : Memory} (h : m.wf = true) (a : Nat) (v : Byte) (b : Nat) :
    (m.setByte a v).byte b = if a = b then v else m.byte b :=
  sparseGet_put emptyByte m.cells a v 0 (Memory.wf_cells h) b

/-- A byte outside a write reads as before; a byte inside reads as written. -/
theorem Memory.write_byte (bs : List Byte) : ∀ {m : Memory} (_ : m.wf = true) (a b : Nat),
    (m.write a bs).byte b = if a ≤ b ∧ b < a + bs.length then (bs[b - a]?).getD 0 else m.byte b := by
  induction bs with
  | nil =>
    intro m _ a b
    have : ¬(a ≤ b ∧ b < a + ([] : List Byte).length) := by simp only [List.length_nil]; omega
    rw [if_neg this]; rfl
  | cons v t ih =>
    intro m h a b
    show ((m.setByte a v).write (a + 1) t).byte b = _
    rw [ih (Memory.setByte_wf a v h), Memory.setByte_byte h]
    by_cases h0 : a = b
    · subst h0
      simp <;> omega
    · by_cases h1 : a + 1 ≤ b ∧ b < a + 1 + t.length
      · have h2 : a ≤ b ∧ b < a + (v :: t).length := by simp only [List.length_cons]; omega
        have h3 : b - a = (b - (a + 1)) + 1 := by omega
        rw [if_pos h1, if_pos h2, h3, List.getElem?_cons_succ]
      · have h2 : ¬(a ≤ b ∧ b < a + (v :: t).length) := by simp only [List.length_cons]; omega
        rw [if_neg h1, if_neg h2, if_neg h0]

/-! ### Reads across the clamps of a cluster (R444) -/

/-- What reads as good lies behind no clamps, so a reader gets the stored bytes. -/
theorem State.bytesAt_of_good {s : State} {a n : Nat} (h : s.poisonAt a n = []) : s.bytesAt a n = s.mem.read a n := by
  have h : ∀ g ∈ granules a n, (s.mem.isPoison g || s.dark (32 * g)) = false := by simpa [State.poisonAt] using h
  have no : (granules a n).any (fun g => s.dark (32 * g)) = false := by
    simp only [List.any_eq_false]
    intro g hg
    have := h g hg
    simp_all
  simp [State.bytesAt, no]

/-- Where every switch is on, the marks alone are poison. -/
theorem State.poisonAt_of_lit {s : State} {a n : Nat} (h : ∀ g ∈ granules a n, s.dark (32 * g) = false) :
    s.poisonAt a n = s.mem.poisonIn a n := by
  apply List.filter_congr
  intro g hg
  simp [h g hg]

theorem State.loadHome_fst (s : State) (v : Via) (a n : Nat) : (s.loadHome v a n).1 = { bytes := s.bytesAt a n, bad := s.poisonAt a n } := rfl

end Sys2Proof.Machine
end

