-- ==== Sys2Proof/Laws/State.lean ====
section
/-! SUPPORT. What each basic update of the state leaves as it was, field by field, and what it sets. -/

namespace Sys2Proof.Machine

/-! ### modCore -/

@[simp] theorem State.modCore_cores (s : State) (i : Nat) (f : Core → Core) : (s.modCore i f).cores = s.cores.modify i f := rfl
@[simp] theorem State.modCore_pending (s : State) (i : Nat) (f : Core → Core) : (s.modCore i f).pending = s.pending := rfl
@[simp] theorem State.modCore_free (s : State) (i : Nat) (f : Core → Core) : (s.modCore i f).free = s.free := rfl
@[simp] theorem State.modCore_time (s : State) (i : Nat) (f : Core → Core) : (s.modCore i f).time = s.time := rfl
@[simp] theorem State.modCore_start (s : State) (i : Nat) (f : Core → Core) : (s.modCore i f).start = s.start := rfl
@[simp] theorem State.modCore_pwr (s : State) (i : Nat) (f : Core → Core) : (s.modCore i f).pwr = s.pwr := rfl
@[simp] theorem State.modCore_therm (s : State) (i : Nat) (f : Core → Core) : (s.modCore i f).therm = s.therm := rfl
@[simp] theorem State.modCore_sec (s : State) (i : Nat) (f : Core → Core) : (s.modCore i f).sec = s.sec := rfl
@[simp] theorem State.modCore_flash (s : State) (i : Nat) (f : Core → Core) : (s.modCore i f).flash = s.flash := rfl
@[simp] theorem State.modCore_mbx (s : State) (i : Nat) (f : Core → Core) : (s.modCore i f).mbx = s.mbx := rfl
@[simp] theorem State.modCore_log (s : State) (i : Nat) (f : Core → Core) : (s.modCore i f).log = s.log := rfl
@[simp] theorem State.modCore_sun (s : State) (i : Nat) (f : Core → Core) : (s.modCore i f).sun = s.sun := rfl
@[simp] theorem State.modCore_frost (s : State) (i : Nat) (f : Core → Core) : (s.modCore i f).frost = s.frost := rfl
@[simp] theorem State.modCore_fw (s : State) (i : Nat) (f : Core → Core) : (s.modCore i f).fw = s.fw := rfl
@[simp] theorem State.modCore_group (s : State) (i : Nat) (f : Core → Core) : (s.modCore i f).group = s.group := rfl
@[simp] theorem State.modCore_regs (s : State) (i : Nat) (f : Core → Core) : (s.modCore i f).regs = s.regs := rfl
@[simp] theorem State.modCore_votes (s : State) (i : Nat) (f : Core → Core) : (s.modCore i f).votes = s.votes := rfl
@[simp] theorem State.modCore_pcie (s : State) (i : Nat) (f : Core → Core) : (s.modCore i f).pcie = s.pcie := rfl
@[simp] theorem State.modCore_wide (s : State) (i : Nat) (f : Core → Core) : (s.modCore i f).wide = s.wide := rfl
@[simp] theorem State.modCore_perf (s : State) (i : Nat) (f : Core → Core) : (s.modCore i f).perf = s.perf := rfl
@[simp] theorem State.modCore_banks (s : State) (i : Nat) (f : Core → Core) : (s.modCore i f).banks = s.banks := rfl
@[simp] theorem State.modCore_mem (s : State) (i : Nat) (f : Core → Core) : (s.modCore i f).mem = s.mem := rfl
@[simp] theorem State.modCore_caches (s : State) (i : Nat) (f : Core → Core) : (s.modCore i f).caches = s.caches := rfl
@[simp] theorem State.modCore_clusters (s : State) (i : Nat) (f : Core → Core) : (s.modCore i f).clusters = s.clusters := rfl
@[simp] theorem State.modCore_hbms (s : State) (i : Nat) (f : Core → Core) : (s.modCore i f).hbms = s.hbms := rfl
@[simp] theorem State.modCore_links (s : State) (i : Nat) (f : Core → Core) : (s.modCore i f).links = s.links := rfl
@[simp] theorem State.modCore_ports (s : State) (i : Nat) (f : Core → Core) : (s.modCore i f).ports = s.ports := rfl
@[simp] theorem State.modCore_routes (s : State) (i : Nat) (f : Core → Core) : (s.modCore i f).routes = s.routes := rfl
@[simp] theorem State.modCore_sets (s : State) (i : Nat) (f : Core → Core) : (s.modCore i f).sets = s.sets := rfl
@[simp] theorem State.modCore_ctxs (s : State) (i : Nat) (f : Core → Core) : (s.modCore i f).ctxs = s.ctxs := rfl
@[simp] theorem State.modCore_ops (s : State) (i : Nat) (f : Core → Core) : (s.modCore i f).ops = s.ops := rfl
@[simp] theorem State.modCore_colls (s : State) (i : Nat) (f : Core → Core) : (s.modCore i f).colls = s.colls := rfl
@[simp] theorem State.modCore_collHeld (s : State) (i : Nat) (f : Core → Core) : (s.modCore i f).collHeld = s.collHeld := rfl
@[simp] theorem State.modCore_collOver (s : State) (i : Nat) (f : Core → Core) : (s.modCore i f).collOver = s.collOver := rfl
@[simp] theorem State.modCore_adderQ (s : State) (i : Nat) (f : Core → Core) : (s.modCore i f).adderQ = s.adderQ := rfl
@[simp] theorem State.modCore_pruneQ (s : State) (i : Nat) (f : Core → Core) : (s.modCore i f).pruneQ = s.pruneQ := rfl
@[simp] theorem State.modCore_slots (s : State) (i : Nat) (f : Core → Core) : (s.modCore i f).slots = s.slots := rfl
@[simp] theorem State.modCore_batches (s : State) (i : Nat) (f : Core → Core) : (s.modCore i f).batches = s.batches := rfl
@[simp] theorem State.modCore_posted (s : State) (i : Nat) (f : Core → Core) : (s.modCore i f).posted = s.posted := rfl
@[simp] theorem State.modCore_passes (s : State) (i : Nat) (f : Core → Core) : (s.modCore i f).passes = s.passes := rfl
@[simp] theorem State.modCore_coreWait (s : State) (i : Nat) (f : Core → Core) : (s.modCore i f).coreWait = s.coreWait := rfl
@[simp] theorem State.modCore_retired (s : State) (i : Nat) (f : Core → Core) : (s.modCore i f).retired = s.retired := rfl
@[simp] theorem State.modCore_overflow (s : State) (i : Nat) (f : Core → Core) : (s.modCore i f).overflow = s.overflow := rfl
@[simp] theorem State.modCore_runref (s : State) (i : Nat) (f : Core → Core) : (s.modCore i f).runref = s.runref := rfl
@[simp] theorem State.modCore_out (s : State) (i : Nat) (f : Core → Core) : (s.modCore i f).out = s.out := rfl

/-! ### modCluster -/

@[simp] theorem State.modCluster_clusters (s : State) (i : Nat) (f : Cluster → Cluster) : (s.modCluster i f).clusters = s.clusters.modify i f := rfl
@[simp] theorem State.modCluster_pending (s : State) (i : Nat) (f : Cluster → Cluster) : (s.modCluster i f).pending = s.pending := rfl
@[simp] theorem State.modCluster_free (s : State) (i : Nat) (f : Cluster → Cluster) : (s.modCluster i f).free = s.free := rfl
@[simp] theorem State.modCluster_time (s : State) (i : Nat) (f : Cluster → Cluster) : (s.modCluster i f).time = s.time := rfl
@[simp] theorem State.modCluster_start (s : State) (i : Nat) (f : Cluster → Cluster) : (s.modCluster i f).start = s.start := rfl
@[simp] theorem State.modCluster_pwr (s : State) (i : Nat) (f : Cluster → Cluster) : (s.modCluster i f).pwr = s.pwr := rfl
@[simp] theorem State.modCluster_therm (s : State) (i : Nat) (f : Cluster → Cluster) : (s.modCluster i f).therm = s.therm := rfl
@[simp] theorem State.modCluster_sec (s : State) (i : Nat) (f : Cluster → Cluster) : (s.modCluster i f).sec = s.sec := rfl
@[simp] theorem State.modCluster_flash (s : State) (i : Nat) (f : Cluster → Cluster) : (s.modCluster i f).flash = s.flash := rfl
@[simp] theorem State.modCluster_mbx (s : State) (i : Nat) (f : Cluster → Cluster) : (s.modCluster i f).mbx = s.mbx := rfl
@[simp] theorem State.modCluster_log (s : State) (i : Nat) (f : Cluster → Cluster) : (s.modCluster i f).log = s.log := rfl
@[simp] theorem State.modCluster_sun (s : State) (i : Nat) (f : Cluster → Cluster) : (s.modCluster i f).sun = s.sun := rfl
@[simp] theorem State.modCluster_frost (s : State) (i : Nat) (f : Cluster → Cluster) : (s.modCluster i f).frost = s.frost := rfl
@[simp] theorem State.modCluster_fw (s : State) (i : Nat) (f : Cluster → Cluster) : (s.modCluster i f).fw = s.fw := rfl
@[simp] theorem State.modCluster_group (s : State) (i : Nat) (f : Cluster → Cluster) : (s.modCluster i f).group = s.group := rfl
@[simp] theorem State.modCluster_regs (s : State) (i : Nat) (f : Cluster → Cluster) : (s.modCluster i f).regs = s.regs := rfl
@[simp] theorem State.modCluster_votes (s : State) (i : Nat) (f : Cluster → Cluster) : (s.modCluster i f).votes = s.votes := rfl
@[simp] theorem State.modCluster_pcie (s : State) (i : Nat) (f : Cluster → Cluster) : (s.modCluster i f).pcie = s.pcie := rfl
@[simp] theorem State.modCluster_wide (s : State) (i : Nat) (f : Cluster → Cluster) : (s.modCluster i f).wide = s.wide := rfl
@[simp] theorem State.modCluster_perf (s : State) (i : Nat) (f : Cluster → Cluster) : (s.modCluster i f).perf = s.perf := rfl
@[simp] theorem State.modCluster_banks (s : State) (i : Nat) (f : Cluster → Cluster) : (s.modCluster i f).banks = s.banks := rfl
@[simp] theorem State.modCluster_mem (s : State) (i : Nat) (f : Cluster → Cluster) : (s.modCluster i f).mem = s.mem := rfl
@[simp] theorem State.modCluster_caches (s : State) (i : Nat) (f : Cluster → Cluster) : (s.modCluster i f).caches = s.caches := rfl
@[simp] theorem State.modCluster_cores (s : State) (i : Nat) (f : Cluster → Cluster) : (s.modCluster i f).cores = s.cores := rfl
@[simp] theorem State.modCluster_hbms (s : State) (i : Nat) (f : Cluster → Cluster) : (s.modCluster i f).hbms = s.hbms := rfl
@[simp] theorem State.modCluster_links (s : State) (i : Nat) (f : Cluster → Cluster) : (s.modCluster i f).links = s.links := rfl
@[simp] theorem State.modCluster_ports (s : State) (i : Nat) (f : Cluster → Cluster) : (s.modCluster i f).ports = s.ports := rfl
@[simp] theorem State.modCluster_routes (s : State) (i : Nat) (f : Cluster → Cluster) : (s.modCluster i f).routes = s.routes := rfl
@[simp] theorem State.modCluster_sets (s : State) (i : Nat) (f : Cluster → Cluster) : (s.modCluster i f).sets = s.sets := rfl
@[simp] theorem State.modCluster_ctxs (s : State) (i : Nat) (f : Cluster → Cluster) : (s.modCluster i f).ctxs = s.ctxs := rfl
@[simp] theorem State.modCluster_ops (s : State) (i : Nat) (f : Cluster → Cluster) : (s.modCluster i f).ops = s.ops := rfl
@[simp] theorem State.modCluster_colls (s : State) (i : Nat) (f : Cluster → Cluster) : (s.modCluster i f).colls = s.colls := rfl
@[simp] theorem State.modCluster_collHeld (s : State) (i : Nat) (f : Cluster → Cluster) : (s.modCluster i f).collHeld = s.collHeld := rfl
@[simp] theorem State.modCluster_collOver (s : State) (i : Nat) (f : Cluster → Cluster) : (s.modCluster i f).collOver = s.collOver := rfl
@[simp] theorem State.modCluster_adderQ (s : State) (i : Nat) (f : Cluster → Cluster) : (s.modCluster i f).adderQ = s.adderQ := rfl
@[simp] theorem State.modCluster_pruneQ (s : State) (i : Nat) (f : Cluster → Cluster) : (s.modCluster i f).pruneQ = s.pruneQ := rfl
@[simp] theorem State.modCluster_slots (s : State) (i : Nat) (f : Cluster → Cluster) : (s.modCluster i f).slots = s.slots := rfl
@[simp] theorem State.modCluster_batches (s : State) (i : Nat) (f : Cluster → Cluster) : (s.modCluster i f).batches = s.batches := rfl
@[simp] theorem State.modCluster_posted (s : State) (i : Nat) (f : Cluster → Cluster) : (s.modCluster i f).posted = s.posted := rfl
@[simp] theorem State.modCluster_passes (s : State) (i : Nat) (f : Cluster → Cluster) : (s.modCluster i f).passes = s.passes := rfl
@[simp] theorem State.modCluster_coreWait (s : State) (i : Nat) (f : Cluster → Cluster) : (s.modCluster i f).coreWait = s.coreWait := rfl
@[simp] theorem State.modCluster_retired (s : State) (i : Nat) (f : Cluster → Cluster) : (s.modCluster i f).retired = s.retired := rfl
@[simp] theorem State.modCluster_overflow (s : State) (i : Nat) (f : Cluster → Cluster) : (s.modCluster i f).overflow = s.overflow := rfl
@[simp] theorem State.modCluster_runref (s : State) (i : Nat) (f : Cluster → Cluster) : (s.modCluster i f).runref = s.runref := rfl
@[simp] theorem State.modCluster_out (s : State) (i : Nat) (f : Cluster → Cluster) : (s.modCluster i f).out = s.out := rfl

/-! ### modHbm -/

@[simp] theorem State.modHbm_hbms (s : State) (i : Nat) (f : Hbm → Hbm) : (s.modHbm i f).hbms = s.hbms.modify i f := rfl
@[simp] theorem State.modHbm_pending (s : State) (i : Nat) (f : Hbm → Hbm) : (s.modHbm i f).pending = s.pending := rfl
@[simp] theorem State.modHbm_free (s : State) (i : Nat) (f : Hbm → Hbm) : (s.modHbm i f).free = s.free := rfl
@[simp] theorem State.modHbm_time (s : State) (i : Nat) (f : Hbm → Hbm) : (s.modHbm i f).time = s.time := rfl
@[simp] theorem State.modHbm_start (s : State) (i : Nat) (f : Hbm → Hbm) : (s.modHbm i f).start = s.start := rfl
@[simp] theorem State.modHbm_pwr (s : State) (i : Nat) (f : Hbm → Hbm) : (s.modHbm i f).pwr = s.pwr := rfl
@[simp] theorem State.modHbm_therm (s : State) (i : Nat) (f : Hbm → Hbm) : (s.modHbm i f).therm = s.therm := rfl
@[simp] theorem State.modHbm_sec (s : State) (i : Nat) (f : Hbm → Hbm) : (s.modHbm i f).sec = s.sec := rfl
@[simp] theorem State.modHbm_flash (s : State) (i : Nat) (f : Hbm → Hbm) : (s.modHbm i f).flash = s.flash := rfl
@[simp] theorem State.modHbm_mbx (s : State) (i : Nat) (f : Hbm → Hbm) : (s.modHbm i f).mbx = s.mbx := rfl
@[simp] theorem State.modHbm_log (s : State) (i : Nat) (f : Hbm → Hbm) : (s.modHbm i f).log = s.log := rfl
@[simp] theorem State.modHbm_sun (s : State) (i : Nat) (f : Hbm → Hbm) : (s.modHbm i f).sun = s.sun := rfl
@[simp] theorem State.modHbm_frost (s : State) (i : Nat) (f : Hbm → Hbm) : (s.modHbm i f).frost = s.frost := rfl
@[simp] theorem State.modHbm_fw (s : State) (i : Nat) (f : Hbm → Hbm) : (s.modHbm i f).fw = s.fw := rfl
@[simp] theorem State.modHbm_group (s : State) (i : Nat) (f : Hbm → Hbm) : (s.modHbm i f).group = s.group := rfl
@[simp] theorem State.modHbm_regs (s : State) (i : Nat) (f : Hbm → Hbm) : (s.modHbm i f).regs = s.regs := rfl
@[simp] theorem State.modHbm_votes (s : State) (i : Nat) (f : Hbm → Hbm) : (s.modHbm i f).votes = s.votes := rfl
@[simp] theorem State.modHbm_pcie (s : State) (i : Nat) (f : Hbm → Hbm) : (s.modHbm i f).pcie = s.pcie := rfl
@[simp] theorem State.modHbm_wide (s : State) (i : Nat) (f : Hbm → Hbm) : (s.modHbm i f).wide = s.wide := rfl
@[simp] theorem State.modHbm_perf (s : State) (i : Nat) (f : Hbm → Hbm) : (s.modHbm i f).perf = s.perf := rfl
@[simp] theorem State.modHbm_banks (s : State) (i : Nat) (f : Hbm → Hbm) : (s.modHbm i f).banks = s.banks := rfl
@[simp] theorem State.modHbm_mem (s : State) (i : Nat) (f : Hbm → Hbm) : (s.modHbm i f).mem = s.mem := rfl
@[simp] theorem State.modHbm_caches (s : State) (i : Nat) (f : Hbm → Hbm) : (s.modHbm i f).caches = s.caches := rfl
@[simp] theorem State.modHbm_clusters (s : State) (i : Nat) (f : Hbm → Hbm) : (s.modHbm i f).clusters = s.clusters := rfl
@[simp] theorem State.modHbm_cores (s : State) (i : Nat) (f : Hbm → Hbm) : (s.modHbm i f).cores = s.cores := rfl
@[simp] theorem State.modHbm_links (s : State) (i : Nat) (f : Hbm → Hbm) : (s.modHbm i f).links = s.links := rfl
@[simp] theorem State.modHbm_ports (s : State) (i : Nat) (f : Hbm → Hbm) : (s.modHbm i f).ports = s.ports := rfl
@[simp] theorem State.modHbm_routes (s : State) (i : Nat) (f : Hbm → Hbm) : (s.modHbm i f).routes = s.routes := rfl
@[simp] theorem State.modHbm_sets (s : State) (i : Nat) (f : Hbm → Hbm) : (s.modHbm i f).sets = s.sets := rfl
@[simp] theorem State.modHbm_ctxs (s : State) (i : Nat) (f : Hbm → Hbm) : (s.modHbm i f).ctxs = s.ctxs := rfl
@[simp] theorem State.modHbm_ops (s : State) (i : Nat) (f : Hbm → Hbm) : (s.modHbm i f).ops = s.ops := rfl
@[simp] theorem State.modHbm_colls (s : State) (i : Nat) (f : Hbm → Hbm) : (s.modHbm i f).colls = s.colls := rfl
@[simp] theorem State.modHbm_collHeld (s : State) (i : Nat) (f : Hbm → Hbm) : (s.modHbm i f).collHeld = s.collHeld := rfl
@[simp] theorem State.modHbm_collOver (s : State) (i : Nat) (f : Hbm → Hbm) : (s.modHbm i f).collOver = s.collOver := rfl
@[simp] theorem State.modHbm_adderQ (s : State) (i : Nat) (f : Hbm → Hbm) : (s.modHbm i f).adderQ = s.adderQ := rfl
@[simp] theorem State.modHbm_pruneQ (s : State) (i : Nat) (f : Hbm → Hbm) : (s.modHbm i f).pruneQ = s.pruneQ := rfl
@[simp] theorem State.modHbm_slots (s : State) (i : Nat) (f : Hbm → Hbm) : (s.modHbm i f).slots = s.slots := rfl
@[simp] theorem State.modHbm_batches (s : State) (i : Nat) (f : Hbm → Hbm) : (s.modHbm i f).batches = s.batches := rfl
@[simp] theorem State.modHbm_posted (s : State) (i : Nat) (f : Hbm → Hbm) : (s.modHbm i f).posted = s.posted := rfl
@[simp] theorem State.modHbm_passes (s : State) (i : Nat) (f : Hbm → Hbm) : (s.modHbm i f).passes = s.passes := rfl
@[simp] theorem State.modHbm_coreWait (s : State) (i : Nat) (f : Hbm → Hbm) : (s.modHbm i f).coreWait = s.coreWait := rfl
@[simp] theorem State.modHbm_retired (s : State) (i : Nat) (f : Hbm → Hbm) : (s.modHbm i f).retired = s.retired := rfl
@[simp] theorem State.modHbm_overflow (s : State) (i : Nat) (f : Hbm → Hbm) : (s.modHbm i f).overflow = s.overflow := rfl
@[simp] theorem State.modHbm_runref (s : State) (i : Nat) (f : Hbm → Hbm) : (s.modHbm i f).runref = s.runref := rfl
@[simp] theorem State.modHbm_out (s : State) (i : Nat) (f : Hbm → Hbm) : (s.modHbm i f).out = s.out := rfl

/-! ### modLink -/

@[simp] theorem State.modLink_links (s : State) (i : Nat) (f : Link → Link) : (s.modLink i f).links = s.links.modify i f := rfl
@[simp] theorem State.modLink_pending (s : State) (i : Nat) (f : Link → Link) : (s.modLink i f).pending = s.pending := rfl
@[simp] theorem State.modLink_free (s : State) (i : Nat) (f : Link → Link) : (s.modLink i f).free = s.free := rfl
@[simp] theorem State.modLink_time (s : State) (i : Nat) (f : Link → Link) : (s.modLink i f).time = s.time := rfl
@[simp] theorem State.modLink_start (s : State) (i : Nat) (f : Link → Link) : (s.modLink i f).start = s.start := rfl
@[simp] theorem State.modLink_pwr (s : State) (i : Nat) (f : Link → Link) : (s.modLink i f).pwr = s.pwr := rfl
@[simp] theorem State.modLink_therm (s : State) (i : Nat) (f : Link → Link) : (s.modLink i f).therm = s.therm := rfl
@[simp] theorem State.modLink_sec (s : State) (i : Nat) (f : Link → Link) : (s.modLink i f).sec = s.sec := rfl
@[simp] theorem State.modLink_flash (s : State) (i : Nat) (f : Link → Link) : (s.modLink i f).flash = s.flash := rfl
@[simp] theorem State.modLink_mbx (s : State) (i : Nat) (f : Link → Link) : (s.modLink i f).mbx = s.mbx := rfl
@[simp] theorem State.modLink_log (s : State) (i : Nat) (f : Link → Link) : (s.modLink i f).log = s.log := rfl
@[simp] theorem State.modLink_sun (s : State) (i : Nat) (f : Link → Link) : (s.modLink i f).sun = s.sun := rfl
@[simp] theorem State.modLink_frost (s : State) (i : Nat) (f : Link → Link) : (s.modLink i f).frost = s.frost := rfl
@[simp] theorem State.modLink_fw (s : State) (i : Nat) (f : Link → Link) : (s.modLink i f).fw = s.fw := rfl
@[simp] theorem State.modLink_group (s : State) (i : Nat) (f : Link → Link) : (s.modLink i f).group = s.group := rfl
@[simp] theorem State.modLink_regs (s : State) (i : Nat) (f : Link → Link) : (s.modLink i f).regs = s.regs := rfl
@[simp] theorem State.modLink_votes (s : State) (i : Nat) (f : Link → Link) : (s.modLink i f).votes = s.votes := rfl
@[simp] theorem State.modLink_pcie (s : State) (i : Nat) (f : Link → Link) : (s.modLink i f).pcie = s.pcie := rfl
@[simp] theorem State.modLink_wide (s : State) (i : Nat) (f : Link → Link) : (s.modLink i f).wide = s.wide := rfl
@[simp] theorem State.modLink_perf (s : State) (i : Nat) (f : Link → Link) : (s.modLink i f).perf = s.perf := rfl
@[simp] theorem State.modLink_banks (s : State) (i : Nat) (f : Link → Link) : (s.modLink i f).banks = s.banks := rfl
@[simp] theorem State.modLink_mem (s : State) (i : Nat) (f : Link → Link) : (s.modLink i f).mem = s.mem := rfl
@[simp] theorem State.modLink_caches (s : State) (i : Nat) (f : Link → Link) : (s.modLink i f).caches = s.caches := rfl
@[simp] theorem State.modLink_clusters (s : State) (i : Nat) (f : Link → Link) : (s.modLink i f).clusters = s.clusters := rfl
@[simp] theorem State.modLink_cores (s : State) (i : Nat) (f : Link → Link) : (s.modLink i f).cores = s.cores := rfl
@[simp] theorem State.modLink_hbms (s : State) (i : Nat) (f : Link → Link) : (s.modLink i f).hbms = s.hbms := rfl
@[simp] theorem State.modLink_ports (s : State) (i : Nat) (f : Link → Link) : (s.modLink i f).ports = s.ports := rfl
@[simp] theorem State.modLink_routes (s : State) (i : Nat) (f : Link → Link) : (s.modLink i f).routes = s.routes := rfl
@[simp] theorem State.modLink_sets (s : State) (i : Nat) (f : Link → Link) : (s.modLink i f).sets = s.sets := rfl
@[simp] theorem State.modLink_ctxs (s : State) (i : Nat) (f : Link → Link) : (s.modLink i f).ctxs = s.ctxs := rfl
@[simp] theorem State.modLink_ops (s : State) (i : Nat) (f : Link → Link) : (s.modLink i f).ops = s.ops := rfl
@[simp] theorem State.modLink_colls (s : State) (i : Nat) (f : Link → Link) : (s.modLink i f).colls = s.colls := rfl
@[simp] theorem State.modLink_collHeld (s : State) (i : Nat) (f : Link → Link) : (s.modLink i f).collHeld = s.collHeld := rfl
@[simp] theorem State.modLink_collOver (s : State) (i : Nat) (f : Link → Link) : (s.modLink i f).collOver = s.collOver := rfl
@[simp] theorem State.modLink_adderQ (s : State) (i : Nat) (f : Link → Link) : (s.modLink i f).adderQ = s.adderQ := rfl
@[simp] theorem State.modLink_pruneQ (s : State) (i : Nat) (f : Link → Link) : (s.modLink i f).pruneQ = s.pruneQ := rfl
@[simp] theorem State.modLink_slots (s : State) (i : Nat) (f : Link → Link) : (s.modLink i f).slots = s.slots := rfl
@[simp] theorem State.modLink_batches (s : State) (i : Nat) (f : Link → Link) : (s.modLink i f).batches = s.batches := rfl
@[simp] theorem State.modLink_posted (s : State) (i : Nat) (f : Link → Link) : (s.modLink i f).posted = s.posted := rfl
@[simp] theorem State.modLink_passes (s : State) (i : Nat) (f : Link → Link) : (s.modLink i f).passes = s.passes := rfl
@[simp] theorem State.modLink_coreWait (s : State) (i : Nat) (f : Link → Link) : (s.modLink i f).coreWait = s.coreWait := rfl
@[simp] theorem State.modLink_retired (s : State) (i : Nat) (f : Link → Link) : (s.modLink i f).retired = s.retired := rfl
@[simp] theorem State.modLink_overflow (s : State) (i : Nat) (f : Link → Link) : (s.modLink i f).overflow = s.overflow := rfl
@[simp] theorem State.modLink_runref (s : State) (i : Nat) (f : Link → Link) : (s.modLink i f).runref = s.runref := rfl
@[simp] theorem State.modLink_out (s : State) (i : Nat) (f : Link → Link) : (s.modLink i f).out = s.out := rfl

/-! ### modCache -/

@[simp] theorem State.modCache_caches (s : State) (i : Nat) (f : Cache → Cache) : (s.modCache i f).caches = s.caches.modify i f := rfl
@[simp] theorem State.modCache_pending (s : State) (i : Nat) (f : Cache → Cache) : (s.modCache i f).pending = s.pending := rfl
@[simp] theorem State.modCache_free (s : State) (i : Nat) (f : Cache → Cache) : (s.modCache i f).free = s.free := rfl
@[simp] theorem State.modCache_time (s : State) (i : Nat) (f : Cache → Cache) : (s.modCache i f).time = s.time := rfl
@[simp] theorem State.modCache_start (s : State) (i : Nat) (f : Cache → Cache) : (s.modCache i f).start = s.start := rfl
@[simp] theorem State.modCache_pwr (s : State) (i : Nat) (f : Cache → Cache) : (s.modCache i f).pwr = s.pwr := rfl
@[simp] theorem State.modCache_therm (s : State) (i : Nat) (f : Cache → Cache) : (s.modCache i f).therm = s.therm := rfl
@[simp] theorem State.modCache_sec (s : State) (i : Nat) (f : Cache → Cache) : (s.modCache i f).sec = s.sec := rfl
@[simp] theorem State.modCache_flash (s : State) (i : Nat) (f : Cache → Cache) : (s.modCache i f).flash = s.flash := rfl
@[simp] theorem State.modCache_mbx (s : State) (i : Nat) (f : Cache → Cache) : (s.modCache i f).mbx = s.mbx := rfl
@[simp] theorem State.modCache_log (s : State) (i : Nat) (f : Cache → Cache) : (s.modCache i f).log = s.log := rfl
@[simp] theorem State.modCache_sun (s : State) (i : Nat) (f : Cache → Cache) : (s.modCache i f).sun = s.sun := rfl
@[simp] theorem State.modCache_frost (s : State) (i : Nat) (f : Cache → Cache) : (s.modCache i f).frost = s.frost := rfl
@[simp] theorem State.modCache_fw (s : State) (i : Nat) (f : Cache → Cache) : (s.modCache i f).fw = s.fw := rfl
@[simp] theorem State.modCache_group (s : State) (i : Nat) (f : Cache → Cache) : (s.modCache i f).group = s.group := rfl
@[simp] theorem State.modCache_regs (s : State) (i : Nat) (f : Cache → Cache) : (s.modCache i f).regs = s.regs := rfl
@[simp] theorem State.modCache_votes (s : State) (i : Nat) (f : Cache → Cache) : (s.modCache i f).votes = s.votes := rfl
@[simp] theorem State.modCache_pcie (s : State) (i : Nat) (f : Cache → Cache) : (s.modCache i f).pcie = s.pcie := rfl
@[simp] theorem State.modCache_wide (s : State) (i : Nat) (f : Cache → Cache) : (s.modCache i f).wide = s.wide := rfl
@[simp] theorem State.modCache_perf (s : State) (i : Nat) (f : Cache → Cache) : (s.modCache i f).perf = s.perf := rfl
@[simp] theorem State.modCache_banks (s : State) (i : Nat) (f : Cache → Cache) : (s.modCache i f).banks = s.banks := rfl
@[simp] theorem State.modCache_mem (s : State) (i : Nat) (f : Cache → Cache) : (s.modCache i f).mem = s.mem := rfl
@[simp] theorem State.modCache_clusters (s : State) (i : Nat) (f : Cache → Cache) : (s.modCache i f).clusters = s.clusters := rfl
@[simp] theorem State.modCache_cores (s : State) (i : Nat) (f : Cache → Cache) : (s.modCache i f).cores = s.cores := rfl
@[simp] theorem State.modCache_hbms (s : State) (i : Nat) (f : Cache → Cache) : (s.modCache i f).hbms = s.hbms := rfl
@[simp] theorem State.modCache_links (s : State) (i : Nat) (f : Cache → Cache) : (s.modCache i f).links = s.links := rfl
@[simp] theorem State.modCache_ports (s : State) (i : Nat) (f : Cache → Cache) : (s.modCache i f).ports = s.ports := rfl
@[simp] theorem State.modCache_routes (s : State) (i : Nat) (f : Cache → Cache) : (s.modCache i f).routes = s.routes := rfl
@[simp] theorem State.modCache_sets (s : State) (i : Nat) (f : Cache → Cache) : (s.modCache i f).sets = s.sets := rfl
@[simp] theorem State.modCache_ctxs (s : State) (i : Nat) (f : Cache → Cache) : (s.modCache i f).ctxs = s.ctxs := rfl
@[simp] theorem State.modCache_ops (s : State) (i : Nat) (f : Cache → Cache) : (s.modCache i f).ops = s.ops := rfl
@[simp] theorem State.modCache_colls (s : State) (i : Nat) (f : Cache → Cache) : (s.modCache i f).colls = s.colls := rfl
@[simp] theorem State.modCache_collHeld (s : State) (i : Nat) (f : Cache → Cache) : (s.modCache i f).collHeld = s.collHeld := rfl
@[simp] theorem State.modCache_collOver (s : State) (i : Nat) (f : Cache → Cache) : (s.modCache i f).collOver = s.collOver := rfl
@[simp] theorem State.modCache_adderQ (s : State) (i : Nat) (f : Cache → Cache) : (s.modCache i f).adderQ = s.adderQ := rfl
@[simp] theorem State.modCache_pruneQ (s : State) (i : Nat) (f : Cache → Cache) : (s.modCache i f).pruneQ = s.pruneQ := rfl
@[simp] theorem State.modCache_slots (s : State) (i : Nat) (f : Cache → Cache) : (s.modCache i f).slots = s.slots := rfl
@[simp] theorem State.modCache_batches (s : State) (i : Nat) (f : Cache → Cache) : (s.modCache i f).batches = s.batches := rfl
@[simp] theorem State.modCache_posted (s : State) (i : Nat) (f : Cache → Cache) : (s.modCache i f).posted = s.posted := rfl
@[simp] theorem State.modCache_passes (s : State) (i : Nat) (f : Cache → Cache) : (s.modCache i f).passes = s.passes := rfl
@[simp] theorem State.modCache_coreWait (s : State) (i : Nat) (f : Cache → Cache) : (s.modCache i f).coreWait = s.coreWait := rfl
@[simp] theorem State.modCache_retired (s : State) (i : Nat) (f : Cache → Cache) : (s.modCache i f).retired = s.retired := rfl
@[simp] theorem State.modCache_overflow (s : State) (i : Nat) (f : Cache → Cache) : (s.modCache i f).overflow = s.overflow := rfl
@[simp] theorem State.modCache_runref (s : State) (i : Nat) (f : Cache → Cache) : (s.modCache i f).runref = s.runref := rfl
@[simp] theorem State.modCache_out (s : State) (i : Nat) (f : Cache → Cache) : (s.modCache i f).out = s.out := rfl

/-! ### modCtx -/

@[simp] theorem State.modCtx_ctxs (s : State) (i : Nat) (f : Context → Context) : (s.modCtx i f).ctxs = s.ctxs.modify i (fun o => o.map f) := rfl
@[simp] theorem State.modCtx_pending (s : State) (i : Nat) (f : Context → Context) : (s.modCtx i f).pending = s.pending := rfl
@[simp] theorem State.modCtx_free (s : State) (i : Nat) (f : Context → Context) : (s.modCtx i f).free = s.free := rfl
@[simp] theorem State.modCtx_time (s : State) (i : Nat) (f : Context → Context) : (s.modCtx i f).time = s.time := rfl
@[simp] theorem State.modCtx_start (s : State) (i : Nat) (f : Context → Context) : (s.modCtx i f).start = s.start := rfl
@[simp] theorem State.modCtx_pwr (s : State) (i : Nat) (f : Context → Context) : (s.modCtx i f).pwr = s.pwr := rfl
@[simp] theorem State.modCtx_therm (s : State) (i : Nat) (f : Context → Context) : (s.modCtx i f).therm = s.therm := rfl
@[simp] theorem State.modCtx_sec (s : State) (i : Nat) (f : Context → Context) : (s.modCtx i f).sec = s.sec := rfl
@[simp] theorem State.modCtx_flash (s : State) (i : Nat) (f : Context → Context) : (s.modCtx i f).flash = s.flash := rfl
@[simp] theorem State.modCtx_mbx (s : State) (i : Nat) (f : Context → Context) : (s.modCtx i f).mbx = s.mbx := rfl
@[simp] theorem State.modCtx_log (s : State) (i : Nat) (f : Context → Context) : (s.modCtx i f).log = s.log := rfl
@[simp] theorem State.modCtx_sun (s : State) (i : Nat) (f : Context → Context) : (s.modCtx i f).sun = s.sun := rfl
@[simp] theorem State.modCtx_frost (s : State) (i : Nat) (f : Context → Context) : (s.modCtx i f).frost = s.frost := rfl
@[simp] theorem State.modCtx_fw (s : State) (i : Nat) (f : Context → Context) : (s.modCtx i f).fw = s.fw := rfl
@[simp] theorem State.modCtx_group (s : State) (i : Nat) (f : Context → Context) : (s.modCtx i f).group = s.group := rfl
@[simp] theorem State.modCtx_regs (s : State) (i : Nat) (f : Context → Context) : (s.modCtx i f).regs = s.regs := rfl
@[simp] theorem State.modCtx_votes (s : State) (i : Nat) (f : Context → Context) : (s.modCtx i f).votes = s.votes := rfl
@[simp] theorem State.modCtx_pcie (s : State) (i : Nat) (f : Context → Context) : (s.modCtx i f).pcie = s.pcie := rfl
@[simp] theorem State.modCtx_wide (s : State) (i : Nat) (f : Context → Context) : (s.modCtx i f).wide = s.wide := rfl
@[simp] theorem State.modCtx_perf (s : State) (i : Nat) (f : Context → Context) : (s.modCtx i f).perf = s.perf := rfl
@[simp] theorem State.modCtx_banks (s : State) (i : Nat) (f : Context → Context) : (s.modCtx i f).banks = s.banks := rfl
@[simp] theorem State.modCtx_mem (s : State) (i : Nat) (f : Context → Context) : (s.modCtx i f).mem = s.mem := rfl
@[simp] theorem State.modCtx_caches (s : State) (i : Nat) (f : Context → Context) : (s.modCtx i f).caches = s.caches := rfl
@[simp] theorem State.modCtx_clusters (s : State) (i : Nat) (f : Context → Context) : (s.modCtx i f).clusters = s.clusters := rfl
@[simp] theorem State.modCtx_cores (s : State) (i : Nat) (f : Context → Context) : (s.modCtx i f).cores = s.cores := rfl
@[simp] theorem State.modCtx_hbms (s : State) (i : Nat) (f : Context → Context) : (s.modCtx i f).hbms = s.hbms := rfl
@[simp] theorem State.modCtx_links (s : State) (i : Nat) (f : Context → Context) : (s.modCtx i f).links = s.links := rfl
@[simp] theorem State.modCtx_ports (s : State) (i : Nat) (f : Context → Context) : (s.modCtx i f).ports = s.ports := rfl
@[simp] theorem State.modCtx_routes (s : State) (i : Nat) (f : Context → Context) : (s.modCtx i f).routes = s.routes := rfl
@[simp] theorem State.modCtx_sets (s : State) (i : Nat) (f : Context → Context) : (s.modCtx i f).sets = s.sets := rfl
@[simp] theorem State.modCtx_ops (s : State) (i : Nat) (f : Context → Context) : (s.modCtx i f).ops = s.ops := rfl
@[simp] theorem State.modCtx_colls (s : State) (i : Nat) (f : Context → Context) : (s.modCtx i f).colls = s.colls := rfl
@[simp] theorem State.modCtx_collHeld (s : State) (i : Nat) (f : Context → Context) : (s.modCtx i f).collHeld = s.collHeld := rfl
@[simp] theorem State.modCtx_collOver (s : State) (i : Nat) (f : Context → Context) : (s.modCtx i f).collOver = s.collOver := rfl
@[simp] theorem State.modCtx_adderQ (s : State) (i : Nat) (f : Context → Context) : (s.modCtx i f).adderQ = s.adderQ := rfl
@[simp] theorem State.modCtx_pruneQ (s : State) (i : Nat) (f : Context → Context) : (s.modCtx i f).pruneQ = s.pruneQ := rfl
@[simp] theorem State.modCtx_slots (s : State) (i : Nat) (f : Context → Context) : (s.modCtx i f).slots = s.slots := rfl
@[simp] theorem State.modCtx_batches (s : State) (i : Nat) (f : Context → Context) : (s.modCtx i f).batches = s.batches := rfl
@[simp] theorem State.modCtx_posted (s : State) (i : Nat) (f : Context → Context) : (s.modCtx i f).posted = s.posted := rfl
@[simp] theorem State.modCtx_passes (s : State) (i : Nat) (f : Context → Context) : (s.modCtx i f).passes = s.passes := rfl
@[simp] theorem State.modCtx_coreWait (s : State) (i : Nat) (f : Context → Context) : (s.modCtx i f).coreWait = s.coreWait := rfl
@[simp] theorem State.modCtx_retired (s : State) (i : Nat) (f : Context → Context) : (s.modCtx i f).retired = s.retired := rfl
@[simp] theorem State.modCtx_overflow (s : State) (i : Nat) (f : Context → Context) : (s.modCtx i f).overflow = s.overflow := rfl
@[simp] theorem State.modCtx_runref (s : State) (i : Nat) (f : Context → Context) : (s.modCtx i f).runref = s.runref := rfl
@[simp] theorem State.modCtx_out (s : State) (i : Nat) (f : Context → Context) : (s.modCtx i f).out = s.out := rfl

/-! ### setCtx -/

@[simp] theorem State.setCtx_ctxs (s : State) (i : Nat) (x : Option Context) : (s.setCtx i x).ctxs = s.ctxs.set i x := rfl
@[simp] theorem State.setCtx_pending (s : State) (i : Nat) (x : Option Context) : (s.setCtx i x).pending = s.pending := rfl
@[simp] theorem State.setCtx_free (s : State) (i : Nat) (x : Option Context) : (s.setCtx i x).free = s.free := rfl
@[simp] theorem State.setCtx_time (s : State) (i : Nat) (x : Option Context) : (s.setCtx i x).time = s.time := rfl
@[simp] theorem State.setCtx_start (s : State) (i : Nat) (x : Option Context) : (s.setCtx i x).start = s.start := rfl
@[simp] theorem State.setCtx_pwr (s : State) (i : Nat) (x : Option Context) : (s.setCtx i x).pwr = s.pwr := rfl
@[simp] theorem State.setCtx_therm (s : State) (i : Nat) (x : Option Context) : (s.setCtx i x).therm = s.therm := rfl
@[simp] theorem State.setCtx_sec (s : State) (i : Nat) (x : Option Context) : (s.setCtx i x).sec = s.sec := rfl
@[simp] theorem State.setCtx_flash (s : State) (i : Nat) (x : Option Context) : (s.setCtx i x).flash = s.flash := rfl
@[simp] theorem State.setCtx_mbx (s : State) (i : Nat) (x : Option Context) : (s.setCtx i x).mbx = s.mbx := rfl
@[simp] theorem State.setCtx_log (s : State) (i : Nat) (x : Option Context) : (s.setCtx i x).log = s.log := rfl
@[simp] theorem State.setCtx_sun (s : State) (i : Nat) (x : Option Context) : (s.setCtx i x).sun = s.sun := rfl
@[simp] theorem State.setCtx_frost (s : State) (i : Nat) (x : Option Context) : (s.setCtx i x).frost = s.frost := rfl
@[simp] theorem State.setCtx_fw (s : State) (i : Nat) (x : Option Context) : (s.setCtx i x).fw = s.fw := rfl
@[simp] theorem State.setCtx_group (s : State) (i : Nat) (x : Option Context) : (s.setCtx i x).group = s.group := rfl
@[simp] theorem State.setCtx_regs (s : State) (i : Nat) (x : Option Context) : (s.setCtx i x).regs = s.regs := rfl
@[simp] theorem State.setCtx_votes (s : State) (i : Nat) (x : Option Context) : (s.setCtx i x).votes = s.votes := rfl
@[simp] theorem State.setCtx_pcie (s : State) (i : Nat) (x : Option Context) : (s.setCtx i x).pcie = s.pcie := rfl
@[simp] theorem State.setCtx_wide (s : State) (i : Nat) (x : Option Context) : (s.setCtx i x).wide = s.wide := rfl
@[simp] theorem State.setCtx_perf (s : State) (i : Nat) (x : Option Context) : (s.setCtx i x).perf = s.perf := rfl
@[simp] theorem State.setCtx_banks (s : State) (i : Nat) (x : Option Context) : (s.setCtx i x).banks = s.banks := rfl
@[simp] theorem State.setCtx_mem (s : State) (i : Nat) (x : Option Context) : (s.setCtx i x).mem = s.mem := rfl
@[simp] theorem State.setCtx_caches (s : State) (i : Nat) (x : Option Context) : (s.setCtx i x).caches = s.caches := rfl
@[simp] theorem State.setCtx_clusters (s : State) (i : Nat) (x : Option Context) : (s.setCtx i x).clusters = s.clusters := rfl
@[simp] theorem State.setCtx_cores (s : State) (i : Nat) (x : Option Context) : (s.setCtx i x).cores = s.cores := rfl
@[simp] theorem State.setCtx_hbms (s : State) (i : Nat) (x : Option Context) : (s.setCtx i x).hbms = s.hbms := rfl
@[simp] theorem State.setCtx_links (s : State) (i : Nat) (x : Option Context) : (s.setCtx i x).links = s.links := rfl
@[simp] theorem State.setCtx_ports (s : State) (i : Nat) (x : Option Context) : (s.setCtx i x).ports = s.ports := rfl
@[simp] theorem State.setCtx_routes (s : State) (i : Nat) (x : Option Context) : (s.setCtx i x).routes = s.routes := rfl
@[simp] theorem State.setCtx_sets (s : State) (i : Nat) (x : Option Context) : (s.setCtx i x).sets = s.sets := rfl
@[simp] theorem State.setCtx_ops (s : State) (i : Nat) (x : Option Context) : (s.setCtx i x).ops = s.ops := rfl
@[simp] theorem State.setCtx_colls (s : State) (i : Nat) (x : Option Context) : (s.setCtx i x).colls = s.colls := rfl
@[simp] theorem State.setCtx_collHeld (s : State) (i : Nat) (x : Option Context) : (s.setCtx i x).collHeld = s.collHeld := rfl
@[simp] theorem State.setCtx_collOver (s : State) (i : Nat) (x : Option Context) : (s.setCtx i x).collOver = s.collOver := rfl
@[simp] theorem State.setCtx_adderQ (s : State) (i : Nat) (x : Option Context) : (s.setCtx i x).adderQ = s.adderQ := rfl
@[simp] theorem State.setCtx_pruneQ (s : State) (i : Nat) (x : Option Context) : (s.setCtx i x).pruneQ = s.pruneQ := rfl
@[simp] theorem State.setCtx_slots (s : State) (i : Nat) (x : Option Context) : (s.setCtx i x).slots = s.slots := rfl
@[simp] theorem State.setCtx_batches (s : State) (i : Nat) (x : Option Context) : (s.setCtx i x).batches = s.batches := rfl
@[simp] theorem State.setCtx_posted (s : State) (i : Nat) (x : Option Context) : (s.setCtx i x).posted = s.posted := rfl
@[simp] theorem State.setCtx_passes (s : State) (i : Nat) (x : Option Context) : (s.setCtx i x).passes = s.passes := rfl
@[simp] theorem State.setCtx_coreWait (s : State) (i : Nat) (x : Option Context) : (s.setCtx i x).coreWait = s.coreWait := rfl
@[simp] theorem State.setCtx_retired (s : State) (i : Nat) (x : Option Context) : (s.setCtx i x).retired = s.retired := rfl
@[simp] theorem State.setCtx_overflow (s : State) (i : Nat) (x : Option Context) : (s.setCtx i x).overflow = s.overflow := rfl
@[simp] theorem State.setCtx_runref (s : State) (i : Nat) (x : Option Context) : (s.setCtx i x).runref = s.runref := rfl
@[simp] theorem State.setCtx_out (s : State) (i : Nat) (x : Option Context) : (s.setCtx i x).out = s.out := rfl

/-! ### modProc -/

@[simp] theorem State.modProc_pending (s : State) (i : Nat) (f : ProcState → ProcState) : (s.modProc i f).pending = s.pending := rfl
@[simp] theorem State.modProc_free (s : State) (i : Nat) (f : ProcState → ProcState) : (s.modProc i f).free = s.free := rfl
@[simp] theorem State.modProc_time (s : State) (i : Nat) (f : ProcState → ProcState) : (s.modProc i f).time = s.time := rfl
@[simp] theorem State.modProc_start (s : State) (i : Nat) (f : ProcState → ProcState) : (s.modProc i f).start = s.start := rfl
@[simp] theorem State.modProc_pwr (s : State) (i : Nat) (f : ProcState → ProcState) : (s.modProc i f).pwr = s.pwr := rfl
@[simp] theorem State.modProc_therm (s : State) (i : Nat) (f : ProcState → ProcState) : (s.modProc i f).therm = s.therm := rfl
@[simp] theorem State.modProc_sec (s : State) (i : Nat) (f : ProcState → ProcState) : (s.modProc i f).sec = s.sec := rfl
@[simp] theorem State.modProc_flash (s : State) (i : Nat) (f : ProcState → ProcState) : (s.modProc i f).flash = s.flash := rfl
@[simp] theorem State.modProc_mbx (s : State) (i : Nat) (f : ProcState → ProcState) : (s.modProc i f).mbx = s.mbx := rfl
@[simp] theorem State.modProc_log (s : State) (i : Nat) (f : ProcState → ProcState) : (s.modProc i f).log = s.log := rfl
@[simp] theorem State.modProc_sun (s : State) (i : Nat) (f : ProcState → ProcState) : (s.modProc i f).sun = s.sun := rfl
@[simp] theorem State.modProc_frost (s : State) (i : Nat) (f : ProcState → ProcState) : (s.modProc i f).frost = s.frost := rfl
@[simp] theorem State.modProc_group (s : State) (i : Nat) (f : ProcState → ProcState) : (s.modProc i f).group = s.group := rfl
@[simp] theorem State.modProc_regs (s : State) (i : Nat) (f : ProcState → ProcState) : (s.modProc i f).regs = s.regs := rfl
@[simp] theorem State.modProc_votes (s : State) (i : Nat) (f : ProcState → ProcState) : (s.modProc i f).votes = s.votes := rfl
@[simp] theorem State.modProc_pcie (s : State) (i : Nat) (f : ProcState → ProcState) : (s.modProc i f).pcie = s.pcie := rfl
@[simp] theorem State.modProc_wide (s : State) (i : Nat) (f : ProcState → ProcState) : (s.modProc i f).wide = s.wide := rfl
@[simp] theorem State.modProc_perf (s : State) (i : Nat) (f : ProcState → ProcState) : (s.modProc i f).perf = s.perf := rfl
@[simp] theorem State.modProc_banks (s : State) (i : Nat) (f : ProcState → ProcState) : (s.modProc i f).banks = s.banks := rfl
@[simp] theorem State.modProc_mem (s : State) (i : Nat) (f : ProcState → ProcState) : (s.modProc i f).mem = s.mem := rfl
@[simp] theorem State.modProc_caches (s : State) (i : Nat) (f : ProcState → ProcState) : (s.modProc i f).caches = s.caches := rfl
@[simp] theorem State.modProc_clusters (s : State) (i : Nat) (f : ProcState → ProcState) : (s.modProc i f).clusters = s.clusters := rfl
@[simp] theorem State.modProc_cores (s : State) (i : Nat) (f : ProcState → ProcState) : (s.modProc i f).cores = s.cores := rfl
@[simp] theorem State.modProc_hbms (s : State) (i : Nat) (f : ProcState → ProcState) : (s.modProc i f).hbms = s.hbms := rfl
@[simp] theorem State.modProc_links (s : State) (i : Nat) (f : ProcState → ProcState) : (s.modProc i f).links = s.links := rfl
@[simp] theorem State.modProc_ports (s : State) (i : Nat) (f : ProcState → ProcState) : (s.modProc i f).ports = s.ports := rfl
@[simp] theorem State.modProc_routes (s : State) (i : Nat) (f : ProcState → ProcState) : (s.modProc i f).routes = s.routes := rfl
@[simp] theorem State.modProc_sets (s : State) (i : Nat) (f : ProcState → ProcState) : (s.modProc i f).sets = s.sets := rfl
@[simp] theorem State.modProc_ctxs (s : State) (i : Nat) (f : ProcState → ProcState) : (s.modProc i f).ctxs = s.ctxs := rfl
@[simp] theorem State.modProc_ops (s : State) (i : Nat) (f : ProcState → ProcState) : (s.modProc i f).ops = s.ops := rfl
@[simp] theorem State.modProc_colls (s : State) (i : Nat) (f : ProcState → ProcState) : (s.modProc i f).colls = s.colls := rfl
@[simp] theorem State.modProc_collHeld (s : State) (i : Nat) (f : ProcState → ProcState) : (s.modProc i f).collHeld = s.collHeld := rfl
@[simp] theorem State.modProc_collOver (s : State) (i : Nat) (f : ProcState → ProcState) : (s.modProc i f).collOver = s.collOver := rfl
@[simp] theorem State.modProc_adderQ (s : State) (i : Nat) (f : ProcState → ProcState) : (s.modProc i f).adderQ = s.adderQ := rfl
@[simp] theorem State.modProc_pruneQ (s : State) (i : Nat) (f : ProcState → ProcState) : (s.modProc i f).pruneQ = s.pruneQ := rfl
@[simp] theorem State.modProc_slots (s : State) (i : Nat) (f : ProcState → ProcState) : (s.modProc i f).slots = s.slots := rfl
@[simp] theorem State.modProc_batches (s : State) (i : Nat) (f : ProcState → ProcState) : (s.modProc i f).batches = s.batches := rfl
@[simp] theorem State.modProc_posted (s : State) (i : Nat) (f : ProcState → ProcState) : (s.modProc i f).posted = s.posted := rfl
@[simp] theorem State.modProc_passes (s : State) (i : Nat) (f : ProcState → ProcState) : (s.modProc i f).passes = s.passes := rfl
@[simp] theorem State.modProc_coreWait (s : State) (i : Nat) (f : ProcState → ProcState) : (s.modProc i f).coreWait = s.coreWait := rfl
@[simp] theorem State.modProc_retired (s : State) (i : Nat) (f : ProcState → ProcState) : (s.modProc i f).retired = s.retired := rfl
@[simp] theorem State.modProc_overflow (s : State) (i : Nat) (f : ProcState → ProcState) : (s.modProc i f).overflow = s.overflow := rfl
@[simp] theorem State.modProc_runref (s : State) (i : Nat) (f : ProcState → ProcState) : (s.modProc i f).runref = s.runref := rfl
@[simp] theorem State.modProc_out (s : State) (i : Nat) (f : ProcState → ProcState) : (s.modProc i f).out = s.out := rfl

/-! ### modRegs -/

@[simp] theorem State.modRegs_regs (s : State) (f : RegState → RegState) : (s.modRegs f).regs = f s.regs := rfl
@[simp] theorem State.modRegs_pending (s : State) (f : RegState → RegState) : (s.modRegs f).pending = s.pending := rfl
@[simp] theorem State.modRegs_free (s : State) (f : RegState → RegState) : (s.modRegs f).free = s.free := rfl
@[simp] theorem State.modRegs_time (s : State) (f : RegState → RegState) : (s.modRegs f).time = s.time := rfl
@[simp] theorem State.modRegs_start (s : State) (f : RegState → RegState) : (s.modRegs f).start = s.start := rfl
@[simp] theorem State.modRegs_pwr (s : State) (f : RegState → RegState) : (s.modRegs f).pwr = s.pwr := rfl
@[simp] theorem State.modRegs_therm (s : State) (f : RegState → RegState) : (s.modRegs f).therm = s.therm := rfl
@[simp] theorem State.modRegs_sec (s : State) (f : RegState → RegState) : (s.modRegs f).sec = s.sec := rfl
@[simp] theorem State.modRegs_flash (s : State) (f : RegState → RegState) : (s.modRegs f).flash = s.flash := rfl
@[simp] theorem State.modRegs_mbx (s : State) (f : RegState → RegState) : (s.modRegs f).mbx = s.mbx := rfl
@[simp] theorem State.modRegs_log (s : State) (f : RegState → RegState) : (s.modRegs f).log = s.log := rfl
@[simp] theorem State.modRegs_sun (s : State) (f : RegState → RegState) : (s.modRegs f).sun = s.sun := rfl
@[simp] theorem State.modRegs_frost (s : State) (f : RegState → RegState) : (s.modRegs f).frost = s.frost := rfl
@[simp] theorem State.modRegs_fw (s : State) (f : RegState → RegState) : (s.modRegs f).fw = s.fw := rfl
@[simp] theorem State.modRegs_group (s : State) (f : RegState → RegState) : (s.modRegs f).group = s.group := rfl
@[simp] theorem State.modRegs_votes (s : State) (f : RegState → RegState) : (s.modRegs f).votes = s.votes := rfl
@[simp] theorem State.modRegs_pcie (s : State) (f : RegState → RegState) : (s.modRegs f).pcie = s.pcie := rfl
@[simp] theorem State.modRegs_wide (s : State) (f : RegState → RegState) : (s.modRegs f).wide = s.wide := rfl
@[simp] theorem State.modRegs_perf (s : State) (f : RegState → RegState) : (s.modRegs f).perf = s.perf := rfl
@[simp] theorem State.modRegs_banks (s : State) (f : RegState → RegState) : (s.modRegs f).banks = s.banks := rfl
@[simp] theorem State.modRegs_mem (s : State) (f : RegState → RegState) : (s.modRegs f).mem = s.mem := rfl
@[simp] theorem State.modRegs_caches (s : State) (f : RegState → RegState) : (s.modRegs f).caches = s.caches := rfl
@[simp] theorem State.modRegs_clusters (s : State) (f : RegState → RegState) : (s.modRegs f).clusters = s.clusters := rfl
@[simp] theorem State.modRegs_cores (s : State) (f : RegState → RegState) : (s.modRegs f).cores = s.cores := rfl
@[simp] theorem State.modRegs_hbms (s : State) (f : RegState → RegState) : (s.modRegs f).hbms = s.hbms := rfl
@[simp] theorem State.modRegs_links (s : State) (f : RegState → RegState) : (s.modRegs f).links = s.links := rfl
@[simp] theorem State.modRegs_ports (s : State) (f : RegState → RegState) : (s.modRegs f).ports = s.ports := rfl
@[simp] theorem State.modRegs_routes (s : State) (f : RegState → RegState) : (s.modRegs f).routes = s.routes := rfl
@[simp] theorem State.modRegs_sets (s : State) (f : RegState → RegState) : (s.modRegs f).sets = s.sets := rfl
@[simp] theorem State.modRegs_ctxs (s : State) (f : RegState → RegState) : (s.modRegs f).ctxs = s.ctxs := rfl
@[simp] theorem State.modRegs_ops (s : State) (f : RegState → RegState) : (s.modRegs f).ops = s.ops := rfl
@[simp] theorem State.modRegs_colls (s : State) (f : RegState → RegState) : (s.modRegs f).colls = s.colls := rfl
@[simp] theorem State.modRegs_collHeld (s : State) (f : RegState → RegState) : (s.modRegs f).collHeld = s.collHeld := rfl
@[simp] theorem State.modRegs_collOver (s : State) (f : RegState → RegState) : (s.modRegs f).collOver = s.collOver := rfl
@[simp] theorem State.modRegs_adderQ (s : State) (f : RegState → RegState) : (s.modRegs f).adderQ = s.adderQ := rfl
@[simp] theorem State.modRegs_pruneQ (s : State) (f : RegState → RegState) : (s.modRegs f).pruneQ = s.pruneQ := rfl
@[simp] theorem State.modRegs_slots (s : State) (f : RegState → RegState) : (s.modRegs f).slots = s.slots := rfl
@[simp] theorem State.modRegs_batches (s : State) (f : RegState → RegState) : (s.modRegs f).batches = s.batches := rfl
@[simp] theorem State.modRegs_posted (s : State) (f : RegState → RegState) : (s.modRegs f).posted = s.posted := rfl
@[simp] theorem State.modRegs_passes (s : State) (f : RegState → RegState) : (s.modRegs f).passes = s.passes := rfl
@[simp] theorem State.modRegs_coreWait (s : State) (f : RegState → RegState) : (s.modRegs f).coreWait = s.coreWait := rfl
@[simp] theorem State.modRegs_retired (s : State) (f : RegState → RegState) : (s.modRegs f).retired = s.retired := rfl
@[simp] theorem State.modRegs_overflow (s : State) (f : RegState → RegState) : (s.modRegs f).overflow = s.overflow := rfl
@[simp] theorem State.modRegs_runref (s : State) (f : RegState → RegState) : (s.modRegs f).runref = s.runref := rfl
@[simp] theorem State.modRegs_out (s : State) (f : RegState → RegState) : (s.modRegs f).out = s.out := rfl

/-! ### setMem -/

@[simp] theorem State.setMem_mem (s : State) (m : Memory) : (s.setMem m).mem = m := rfl
@[simp] theorem State.setMem_pending (s : State) (m : Memory) : (s.setMem m).pending = s.pending := rfl
@[simp] theorem State.setMem_free (s : State) (m : Memory) : (s.setMem m).free = s.free := rfl
@[simp] theorem State.setMem_time (s : State) (m : Memory) : (s.setMem m).time = s.time := rfl
@[simp] theorem State.setMem_start (s : State) (m : Memory) : (s.setMem m).start = s.start := rfl
@[simp] theorem State.setMem_pwr (s : State) (m : Memory) : (s.setMem m).pwr = s.pwr := rfl
@[simp] theorem State.setMem_therm (s : State) (m : Memory) : (s.setMem m).therm = s.therm := rfl
@[simp] theorem State.setMem_sec (s : State) (m : Memory) : (s.setMem m).sec = s.sec := rfl
@[simp] theorem State.setMem_flash (s : State) (m : Memory) : (s.setMem m).flash = s.flash := rfl
@[simp] theorem State.setMem_mbx (s : State) (m : Memory) : (s.setMem m).mbx = s.mbx := rfl
@[simp] theorem State.setMem_log (s : State) (m : Memory) : (s.setMem m).log = s.log := rfl
@[simp] theorem State.setMem_sun (s : State) (m : Memory) : (s.setMem m).sun = s.sun := rfl
@[simp] theorem State.setMem_frost (s : State) (m : Memory) : (s.setMem m).frost = s.frost := rfl
@[simp] theorem State.setMem_fw (s : State) (m : Memory) : (s.setMem m).fw = s.fw := rfl
@[simp] theorem State.setMem_group (s : State) (m : Memory) : (s.setMem m).group = s.group := rfl
@[simp] theorem State.setMem_regs (s : State) (m : Memory) : (s.setMem m).regs = s.regs := rfl
@[simp] theorem State.setMem_votes (s : State) (m : Memory) : (s.setMem m).votes = s.votes := rfl
@[simp] theorem State.setMem_pcie (s : State) (m : Memory) : (s.setMem m).pcie = s.pcie := rfl
@[simp] theorem State.setMem_wide (s : State) (m : Memory) : (s.setMem m).wide = s.wide := rfl
@[simp] theorem State.setMem_perf (s : State) (m : Memory) : (s.setMem m).perf = s.perf := rfl
@[simp] theorem State.setMem_banks (s : State) (m : Memory) : (s.setMem m).banks = s.banks := rfl
@[simp] theorem State.setMem_caches (s : State) (m : Memory) : (s.setMem m).caches = s.caches := rfl
@[simp] theorem State.setMem_clusters (s : State) (m : Memory) : (s.setMem m).clusters = s.clusters := rfl
@[simp] theorem State.setMem_cores (s : State) (m : Memory) : (s.setMem m).cores = s.cores := rfl
@[simp] theorem State.setMem_hbms (s : State) (m : Memory) : (s.setMem m).hbms = s.hbms := rfl
@[simp] theorem State.setMem_links (s : State) (m : Memory) : (s.setMem m).links = s.links := rfl
@[simp] theorem State.setMem_ports (s : State) (m : Memory) : (s.setMem m).ports = s.ports := rfl
@[simp] theorem State.setMem_routes (s : State) (m : Memory) : (s.setMem m).routes = s.routes := rfl
@[simp] theorem State.setMem_sets (s : State) (m : Memory) : (s.setMem m).sets = s.sets := rfl
@[simp] theorem State.setMem_ctxs (s : State) (m : Memory) : (s.setMem m).ctxs = s.ctxs := rfl
@[simp] theorem State.setMem_ops (s : State) (m : Memory) : (s.setMem m).ops = s.ops := rfl
@[simp] theorem State.setMem_colls (s : State) (m : Memory) : (s.setMem m).colls = s.colls := rfl
@[simp] theorem State.setMem_collHeld (s : State) (m : Memory) : (s.setMem m).collHeld = s.collHeld := rfl
@[simp] theorem State.setMem_collOver (s : State) (m : Memory) : (s.setMem m).collOver = s.collOver := rfl
@[simp] theorem State.setMem_adderQ (s : State) (m : Memory) : (s.setMem m).adderQ = s.adderQ := rfl
@[simp] theorem State.setMem_pruneQ (s : State) (m : Memory) : (s.setMem m).pruneQ = s.pruneQ := rfl
@[simp] theorem State.setMem_slots (s : State) (m : Memory) : (s.setMem m).slots = s.slots := rfl
@[simp] theorem State.setMem_batches (s : State) (m : Memory) : (s.setMem m).batches = s.batches := rfl
@[simp] theorem State.setMem_posted (s : State) (m : Memory) : (s.setMem m).posted = s.posted := rfl
@[simp] theorem State.setMem_passes (s : State) (m : Memory) : (s.setMem m).passes = s.passes := rfl
@[simp] theorem State.setMem_coreWait (s : State) (m : Memory) : (s.setMem m).coreWait = s.coreWait := rfl
@[simp] theorem State.setMem_retired (s : State) (m : Memory) : (s.setMem m).retired = s.retired := rfl
@[simp] theorem State.setMem_overflow (s : State) (m : Memory) : (s.setMem m).overflow = s.overflow := rfl
@[simp] theorem State.setMem_runref (s : State) (m : Memory) : (s.setMem m).runref = s.runref := rfl
@[simp] theorem State.setMem_out (s : State) (m : Memory) : (s.setMem m).out = s.out := rfl

/-! ### modOp -/

@[simp] theorem State.modOp_ops (s : State) (c : Nat) (idx : W32) (f : Op → Op) : (s.modOp c idx f).ops = modFirst (fun o => o.is c idx) f s.ops := rfl
@[simp] theorem State.modOp_pending (s : State) (c : Nat) (idx : W32) (f : Op → Op) : (s.modOp c idx f).pending = s.pending := rfl
@[simp] theorem State.modOp_free (s : State) (c : Nat) (idx : W32) (f : Op → Op) : (s.modOp c idx f).free = s.free := rfl
@[simp] theorem State.modOp_time (s : State) (c : Nat) (idx : W32) (f : Op → Op) : (s.modOp c idx f).time = s.time := rfl
@[simp] theorem State.modOp_start (s : State) (c : Nat) (idx : W32) (f : Op → Op) : (s.modOp c idx f).start = s.start := rfl
@[simp] theorem State.modOp_pwr (s : State) (c : Nat) (idx : W32) (f : Op → Op) : (s.modOp c idx f).pwr = s.pwr := rfl
@[simp] theorem State.modOp_therm (s : State) (c : Nat) (idx : W32) (f : Op → Op) : (s.modOp c idx f).therm = s.therm := rfl
@[simp] theorem State.modOp_sec (s : State) (c : Nat) (idx : W32) (f : Op → Op) : (s.modOp c idx f).sec = s.sec := rfl
@[simp] theorem State.modOp_flash (s : State) (c : Nat) (idx : W32) (f : Op → Op) : (s.modOp c idx f).flash = s.flash := rfl
@[simp] theorem State.modOp_mbx (s : State) (c : Nat) (idx : W32) (f : Op → Op) : (s.modOp c idx f).mbx = s.mbx := rfl
@[simp] theorem State.modOp_log (s : State) (c : Nat) (idx : W32) (f : Op → Op) : (s.modOp c idx f).log = s.log := rfl
@[simp] theorem State.modOp_sun (s : State) (c : Nat) (idx : W32) (f : Op → Op) : (s.modOp c idx f).sun = s.sun := rfl
@[simp] theorem State.modOp_frost (s : State) (c : Nat) (idx : W32) (f : Op → Op) : (s.modOp c idx f).frost = s.frost := rfl
@[simp] theorem State.modOp_fw (s : State) (c : Nat) (idx : W32) (f : Op → Op) : (s.modOp c idx f).fw = s.fw := rfl
@[simp] theorem State.modOp_group (s : State) (c : Nat) (idx : W32) (f : Op → Op) : (s.modOp c idx f).group = s.group := rfl
@[simp] theorem State.modOp_regs (s : State) (c : Nat) (idx : W32) (f : Op → Op) : (s.modOp c idx f).regs = s.regs := rfl
@[simp] theorem State.modOp_votes (s : State) (c : Nat) (idx : W32) (f : Op → Op) : (s.modOp c idx f).votes = s.votes := rfl
@[simp] theorem State.modOp_pcie (s : State) (c : Nat) (idx : W32) (f : Op → Op) : (s.modOp c idx f).pcie = s.pcie := rfl
@[simp] theorem State.modOp_wide (s : State) (c : Nat) (idx : W32) (f : Op → Op) : (s.modOp c idx f).wide = s.wide := rfl
@[simp] theorem State.modOp_perf (s : State) (c : Nat) (idx : W32) (f : Op → Op) : (s.modOp c idx f).perf = s.perf := rfl
@[simp] theorem State.modOp_banks (s : State) (c : Nat) (idx : W32) (f : Op → Op) : (s.modOp c idx f).banks = s.banks := rfl
@[simp] theorem State.modOp_mem (s : State) (c : Nat) (idx : W32) (f : Op → Op) : (s.modOp c idx f).mem = s.mem := rfl
@[simp] theorem State.modOp_caches (s : State) (c : Nat) (idx : W32) (f : Op → Op) : (s.modOp c idx f).caches = s.caches := rfl
@[simp] theorem State.modOp_clusters (s : State) (c : Nat) (idx : W32) (f : Op → Op) : (s.modOp c idx f).clusters = s.clusters := rfl
@[simp] theorem State.modOp_cores (s : State) (c : Nat) (idx : W32) (f : Op → Op) : (s.modOp c idx f).cores = s.cores := rfl
@[simp] theorem State.modOp_hbms (s : State) (c : Nat) (idx : W32) (f : Op → Op) : (s.modOp c idx f).hbms = s.hbms := rfl
@[simp] theorem State.modOp_links (s : State) (c : Nat) (idx : W32) (f : Op → Op) : (s.modOp c idx f).links = s.links := rfl
@[simp] theorem State.modOp_ports (s : State) (c : Nat) (idx : W32) (f : Op → Op) : (s.modOp c idx f).ports = s.ports := rfl
@[simp] theorem State.modOp_routes (s : State) (c : Nat) (idx : W32) (f : Op → Op) : (s.modOp c idx f).routes = s.routes := rfl
@[simp] theorem State.modOp_sets (s : State) (c : Nat) (idx : W32) (f : Op → Op) : (s.modOp c idx f).sets = s.sets := rfl
@[simp] theorem State.modOp_ctxs (s : State) (c : Nat) (idx : W32) (f : Op → Op) : (s.modOp c idx f).ctxs = s.ctxs := rfl
@[simp] theorem State.modOp_colls (s : State) (c : Nat) (idx : W32) (f : Op → Op) : (s.modOp c idx f).colls = s.colls := rfl
@[simp] theorem State.modOp_collHeld (s : State) (c : Nat) (idx : W32) (f : Op → Op) : (s.modOp c idx f).collHeld = s.collHeld := rfl
@[simp] theorem State.modOp_collOver (s : State) (c : Nat) (idx : W32) (f : Op → Op) : (s.modOp c idx f).collOver = s.collOver := rfl
@[simp] theorem State.modOp_adderQ (s : State) (c : Nat) (idx : W32) (f : Op → Op) : (s.modOp c idx f).adderQ = s.adderQ := rfl
@[simp] theorem State.modOp_pruneQ (s : State) (c : Nat) (idx : W32) (f : Op → Op) : (s.modOp c idx f).pruneQ = s.pruneQ := rfl
@[simp] theorem State.modOp_slots (s : State) (c : Nat) (idx : W32) (f : Op → Op) : (s.modOp c idx f).slots = s.slots := rfl
@[simp] theorem State.modOp_batches (s : State) (c : Nat) (idx : W32) (f : Op → Op) : (s.modOp c idx f).batches = s.batches := rfl
@[simp] theorem State.modOp_posted (s : State) (c : Nat) (idx : W32) (f : Op → Op) : (s.modOp c idx f).posted = s.posted := rfl
@[simp] theorem State.modOp_passes (s : State) (c : Nat) (idx : W32) (f : Op → Op) : (s.modOp c idx f).passes = s.passes := rfl
@[simp] theorem State.modOp_coreWait (s : State) (c : Nat) (idx : W32) (f : Op → Op) : (s.modOp c idx f).coreWait = s.coreWait := rfl
@[simp] theorem State.modOp_retired (s : State) (c : Nat) (idx : W32) (f : Op → Op) : (s.modOp c idx f).retired = s.retired := rfl
@[simp] theorem State.modOp_overflow (s : State) (c : Nat) (idx : W32) (f : Op → Op) : (s.modOp c idx f).overflow = s.overflow := rfl
@[simp] theorem State.modOp_runref (s : State) (c : Nat) (idx : W32) (f : Op → Op) : (s.modOp c idx f).runref = s.runref := rfl
@[simp] theorem State.modOp_out (s : State) (c : Nat) (idx : W32) (f : Op → Op) : (s.modOp c idx f).out = s.out := rfl

/-! ### putOp -/

@[simp] theorem State.putOp_ops (s : State) (o : Op) : (s.putOp o).ops = modFirst (fun q => q.is o.ctx o.idx) (fun _ => o) s.ops := rfl
@[simp] theorem State.putOp_pending (s : State) (o : Op) : (s.putOp o).pending = s.pending := rfl
@[simp] theorem State.putOp_free (s : State) (o : Op) : (s.putOp o).free = s.free := rfl
@[simp] theorem State.putOp_time (s : State) (o : Op) : (s.putOp o).time = s.time := rfl
@[simp] theorem State.putOp_start (s : State) (o : Op) : (s.putOp o).start = s.start := rfl
@[simp] theorem State.putOp_pwr (s : State) (o : Op) : (s.putOp o).pwr = s.pwr := rfl
@[simp] theorem State.putOp_therm (s : State) (o : Op) : (s.putOp o).therm = s.therm := rfl
@[simp] theorem State.putOp_sec (s : State) (o : Op) : (s.putOp o).sec = s.sec := rfl
@[simp] theorem State.putOp_flash (s : State) (o : Op) : (s.putOp o).flash = s.flash := rfl
@[simp] theorem State.putOp_mbx (s : State) (o : Op) : (s.putOp o).mbx = s.mbx := rfl
@[simp] theorem State.putOp_log (s : State) (o : Op) : (s.putOp o).log = s.log := rfl
@[simp] theorem State.putOp_sun (s : State) (o : Op) : (s.putOp o).sun = s.sun := rfl
@[simp] theorem State.putOp_frost (s : State) (o : Op) : (s.putOp o).frost = s.frost := rfl
@[simp] theorem State.putOp_fw (s : State) (o : Op) : (s.putOp o).fw = s.fw := rfl
@[simp] theorem State.putOp_group (s : State) (o : Op) : (s.putOp o).group = s.group := rfl
@[simp] theorem State.putOp_regs (s : State) (o : Op) : (s.putOp o).regs = s.regs := rfl
@[simp] theorem State.putOp_votes (s : State) (o : Op) : (s.putOp o).votes = s.votes := rfl
@[simp] theorem State.putOp_pcie (s : State) (o : Op) : (s.putOp o).pcie = s.pcie := rfl
@[simp] theorem State.putOp_wide (s : State) (o : Op) : (s.putOp o).wide = s.wide := rfl
@[simp] theorem State.putOp_perf (s : State) (o : Op) : (s.putOp o).perf = s.perf := rfl
@[simp] theorem State.putOp_banks (s : State) (o : Op) : (s.putOp o).banks = s.banks := rfl
@[simp] theorem State.putOp_mem (s : State) (o : Op) : (s.putOp o).mem = s.mem := rfl
@[simp] theorem State.putOp_caches (s : State) (o : Op) : (s.putOp o).caches = s.caches := rfl
@[simp] theorem State.putOp_clusters (s : State) (o : Op) : (s.putOp o).clusters = s.clusters := rfl
@[simp] theorem State.putOp_cores (s : State) (o : Op) : (s.putOp o).cores = s.cores := rfl
@[simp] theorem State.putOp_hbms (s : State) (o : Op) : (s.putOp o).hbms = s.hbms := rfl
@[simp] theorem State.putOp_links (s : State) (o : Op) : (s.putOp o).links = s.links := rfl
@[simp] theorem State.putOp_ports (s : State) (o : Op) : (s.putOp o).ports = s.ports := rfl
@[simp] theorem State.putOp_routes (s : State) (o : Op) : (s.putOp o).routes = s.routes := rfl
@[simp] theorem State.putOp_sets (s : State) (o : Op) : (s.putOp o).sets = s.sets := rfl
@[simp] theorem State.putOp_ctxs (s : State) (o : Op) : (s.putOp o).ctxs = s.ctxs := rfl
@[simp] theorem State.putOp_colls (s : State) (o : Op) : (s.putOp o).colls = s.colls := rfl
@[simp] theorem State.putOp_collHeld (s : State) (o : Op) : (s.putOp o).collHeld = s.collHeld := rfl
@[simp] theorem State.putOp_collOver (s : State) (o : Op) : (s.putOp o).collOver = s.collOver := rfl
@[simp] theorem State.putOp_adderQ (s : State) (o : Op) : (s.putOp o).adderQ = s.adderQ := rfl
@[simp] theorem State.putOp_pruneQ (s : State) (o : Op) : (s.putOp o).pruneQ = s.pruneQ := rfl
@[simp] theorem State.putOp_slots (s : State) (o : Op) : (s.putOp o).slots = s.slots := rfl
@[simp] theorem State.putOp_batches (s : State) (o : Op) : (s.putOp o).batches = s.batches := rfl
@[simp] theorem State.putOp_posted (s : State) (o : Op) : (s.putOp o).posted = s.posted := rfl
@[simp] theorem State.putOp_passes (s : State) (o : Op) : (s.putOp o).passes = s.passes := rfl
@[simp] theorem State.putOp_coreWait (s : State) (o : Op) : (s.putOp o).coreWait = s.coreWait := rfl
@[simp] theorem State.putOp_retired (s : State) (o : Op) : (s.putOp o).retired = s.retired := rfl
@[simp] theorem State.putOp_overflow (s : State) (o : Op) : (s.putOp o).overflow = s.overflow := rfl
@[simp] theorem State.putOp_runref (s : State) (o : Op) : (s.putOp o).runref = s.runref := rfl
@[simp] theorem State.putOp_out (s : State) (o : Op) : (s.putOp o).out = s.out := rfl

/-! ### addOp -/

@[simp] theorem State.addOp_ops (s : State) (o : Op) : (s.addOp o).ops = s.ops ++ [o] := rfl
@[simp] theorem State.addOp_pending (s : State) (o : Op) : (s.addOp o).pending = s.pending := rfl
@[simp] theorem State.addOp_free (s : State) (o : Op) : (s.addOp o).free = s.free := rfl
@[simp] theorem State.addOp_time (s : State) (o : Op) : (s.addOp o).time = s.time := rfl
@[simp] theorem State.addOp_start (s : State) (o : Op) : (s.addOp o).start = s.start := rfl
@[simp] theorem State.addOp_pwr (s : State) (o : Op) : (s.addOp o).pwr = s.pwr := rfl
@[simp] theorem State.addOp_therm (s : State) (o : Op) : (s.addOp o).therm = s.therm := rfl
@[simp] theorem State.addOp_sec (s : State) (o : Op) : (s.addOp o).sec = s.sec := rfl
@[simp] theorem State.addOp_flash (s : State) (o : Op) : (s.addOp o).flash = s.flash := rfl
@[simp] theorem State.addOp_mbx (s : State) (o : Op) : (s.addOp o).mbx = s.mbx := rfl
@[simp] theorem State.addOp_log (s : State) (o : Op) : (s.addOp o).log = s.log := rfl
@[simp] theorem State.addOp_sun (s : State) (o : Op) : (s.addOp o).sun = s.sun := rfl
@[simp] theorem State.addOp_frost (s : State) (o : Op) : (s.addOp o).frost = s.frost := rfl
@[simp] theorem State.addOp_fw (s : State) (o : Op) : (s.addOp o).fw = s.fw := rfl
@[simp] theorem State.addOp_group (s : State) (o : Op) : (s.addOp o).group = s.group := rfl
@[simp] theorem State.addOp_regs (s : State) (o : Op) : (s.addOp o).regs = s.regs := rfl
@[simp] theorem State.addOp_votes (s : State) (o : Op) : (s.addOp o).votes = s.votes := rfl
@[simp] theorem State.addOp_pcie (s : State) (o : Op) : (s.addOp o).pcie = s.pcie := rfl
@[simp] theorem State.addOp_wide (s : State) (o : Op) : (s.addOp o).wide = s.wide := rfl
@[simp] theorem State.addOp_perf (s : State) (o : Op) : (s.addOp o).perf = s.perf := rfl
@[simp] theorem State.addOp_banks (s : State) (o : Op) : (s.addOp o).banks = s.banks := rfl
@[simp] theorem State.addOp_mem (s : State) (o : Op) : (s.addOp o).mem = s.mem := rfl
@[simp] theorem State.addOp_caches (s : State) (o : Op) : (s.addOp o).caches = s.caches := rfl
@[simp] theorem State.addOp_clusters (s : State) (o : Op) : (s.addOp o).clusters = s.clusters := rfl
@[simp] theorem State.addOp_cores (s : State) (o : Op) : (s.addOp o).cores = s.cores := rfl
@[simp] theorem State.addOp_hbms (s : State) (o : Op) : (s.addOp o).hbms = s.hbms := rfl
@[simp] theorem State.addOp_links (s : State) (o : Op) : (s.addOp o).links = s.links := rfl
@[simp] theorem State.addOp_ports (s : State) (o : Op) : (s.addOp o).ports = s.ports := rfl
@[simp] theorem State.addOp_routes (s : State) (o : Op) : (s.addOp o).routes = s.routes := rfl
@[simp] theorem State.addOp_sets (s : State) (o : Op) : (s.addOp o).sets = s.sets := rfl
@[simp] theorem State.addOp_ctxs (s : State) (o : Op) : (s.addOp o).ctxs = s.ctxs := rfl
@[simp] theorem State.addOp_colls (s : State) (o : Op) : (s.addOp o).colls = s.colls := rfl
@[simp] theorem State.addOp_collHeld (s : State) (o : Op) : (s.addOp o).collHeld = s.collHeld := rfl
@[simp] theorem State.addOp_collOver (s : State) (o : Op) : (s.addOp o).collOver = s.collOver := rfl
@[simp] theorem State.addOp_adderQ (s : State) (o : Op) : (s.addOp o).adderQ = s.adderQ := rfl
@[simp] theorem State.addOp_pruneQ (s : State) (o : Op) : (s.addOp o).pruneQ = s.pruneQ := rfl
@[simp] theorem State.addOp_slots (s : State) (o : Op) : (s.addOp o).slots = s.slots := rfl
@[simp] theorem State.addOp_batches (s : State) (o : Op) : (s.addOp o).batches = s.batches := rfl
@[simp] theorem State.addOp_posted (s : State) (o : Op) : (s.addOp o).posted = s.posted := rfl
@[simp] theorem State.addOp_passes (s : State) (o : Op) : (s.addOp o).passes = s.passes := rfl
@[simp] theorem State.addOp_coreWait (s : State) (o : Op) : (s.addOp o).coreWait = s.coreWait := rfl
@[simp] theorem State.addOp_retired (s : State) (o : Op) : (s.addOp o).retired = s.retired := rfl
@[simp] theorem State.addOp_overflow (s : State) (o : Op) : (s.addOp o).overflow = s.overflow := rfl
@[simp] theorem State.addOp_runref (s : State) (o : Op) : (s.addOp o).runref = s.runref := rfl
@[simp] theorem State.addOp_out (s : State) (o : Op) : (s.addOp o).out = s.out := rfl

/-! ### dropOp -/

@[simp] theorem State.dropOp_ops (s : State) (c : Nat) (idx : W32) : (s.dropOp c idx).ops = s.ops.filter (fun o => !o.is c idx) := rfl
@[simp] theorem State.dropOp_pending (s : State) (c : Nat) (idx : W32) : (s.dropOp c idx).pending = s.pending := rfl
@[simp] theorem State.dropOp_free (s : State) (c : Nat) (idx : W32) : (s.dropOp c idx).free = s.free := rfl
@[simp] theorem State.dropOp_time (s : State) (c : Nat) (idx : W32) : (s.dropOp c idx).time = s.time := rfl
@[simp] theorem State.dropOp_start (s : State) (c : Nat) (idx : W32) : (s.dropOp c idx).start = s.start := rfl
@[simp] theorem State.dropOp_pwr (s : State) (c : Nat) (idx : W32) : (s.dropOp c idx).pwr = s.pwr := rfl
@[simp] theorem State.dropOp_therm (s : State) (c : Nat) (idx : W32) : (s.dropOp c idx).therm = s.therm := rfl
@[simp] theorem State.dropOp_sec (s : State) (c : Nat) (idx : W32) : (s.dropOp c idx).sec = s.sec := rfl
@[simp] theorem State.dropOp_flash (s : State) (c : Nat) (idx : W32) : (s.dropOp c idx).flash = s.flash := rfl
@[simp] theorem State.dropOp_mbx (s : State) (c : Nat) (idx : W32) : (s.dropOp c idx).mbx = s.mbx := rfl
@[simp] theorem State.dropOp_log (s : State) (c : Nat) (idx : W32) : (s.dropOp c idx).log = s.log := rfl
@[simp] theorem State.dropOp_sun (s : State) (c : Nat) (idx : W32) : (s.dropOp c idx).sun = s.sun := rfl
@[simp] theorem State.dropOp_frost (s : State) (c : Nat) (idx : W32) : (s.dropOp c idx).frost = s.frost := rfl
@[simp] theorem State.dropOp_fw (s : State) (c : Nat) (idx : W32) : (s.dropOp c idx).fw = s.fw := rfl
@[simp] theorem State.dropOp_group (s : State) (c : Nat) (idx : W32) : (s.dropOp c idx).group = s.group := rfl
@[simp] theorem State.dropOp_regs (s : State) (c : Nat) (idx : W32) : (s.dropOp c idx).regs = s.regs := rfl
@[simp] theorem State.dropOp_votes (s : State) (c : Nat) (idx : W32) : (s.dropOp c idx).votes = s.votes := rfl
@[simp] theorem State.dropOp_pcie (s : State) (c : Nat) (idx : W32) : (s.dropOp c idx).pcie = s.pcie := rfl
@[simp] theorem State.dropOp_wide (s : State) (c : Nat) (idx : W32) : (s.dropOp c idx).wide = s.wide := rfl
@[simp] theorem State.dropOp_perf (s : State) (c : Nat) (idx : W32) : (s.dropOp c idx).perf = s.perf := rfl
@[simp] theorem State.dropOp_banks (s : State) (c : Nat) (idx : W32) : (s.dropOp c idx).banks = s.banks := rfl
@[simp] theorem State.dropOp_mem (s : State) (c : Nat) (idx : W32) : (s.dropOp c idx).mem = s.mem := rfl
@[simp] theorem State.dropOp_caches (s : State) (c : Nat) (idx : W32) : (s.dropOp c idx).caches = s.caches := rfl
@[simp] theorem State.dropOp_clusters (s : State) (c : Nat) (idx : W32) : (s.dropOp c idx).clusters = s.clusters := rfl
@[simp] theorem State.dropOp_cores (s : State) (c : Nat) (idx : W32) : (s.dropOp c idx).cores = s.cores := rfl
@[simp] theorem State.dropOp_hbms (s : State) (c : Nat) (idx : W32) : (s.dropOp c idx).hbms = s.hbms := rfl
@[simp] theorem State.dropOp_links (s : State) (c : Nat) (idx : W32) : (s.dropOp c idx).links = s.links := rfl
@[simp] theorem State.dropOp_ports (s : State) (c : Nat) (idx : W32) : (s.dropOp c idx).ports = s.ports := rfl
@[simp] theorem State.dropOp_routes (s : State) (c : Nat) (idx : W32) : (s.dropOp c idx).routes = s.routes := rfl
@[simp] theorem State.dropOp_sets (s : State) (c : Nat) (idx : W32) : (s.dropOp c idx).sets = s.sets := rfl
@[simp] theorem State.dropOp_ctxs (s : State) (c : Nat) (idx : W32) : (s.dropOp c idx).ctxs = s.ctxs := rfl
@[simp] theorem State.dropOp_colls (s : State) (c : Nat) (idx : W32) : (s.dropOp c idx).colls = s.colls := rfl
@[simp] theorem State.dropOp_collHeld (s : State) (c : Nat) (idx : W32) : (s.dropOp c idx).collHeld = s.collHeld := rfl
@[simp] theorem State.dropOp_collOver (s : State) (c : Nat) (idx : W32) : (s.dropOp c idx).collOver = s.collOver := rfl
@[simp] theorem State.dropOp_adderQ (s : State) (c : Nat) (idx : W32) : (s.dropOp c idx).adderQ = s.adderQ := rfl
@[simp] theorem State.dropOp_pruneQ (s : State) (c : Nat) (idx : W32) : (s.dropOp c idx).pruneQ = s.pruneQ := rfl
@[simp] theorem State.dropOp_slots (s : State) (c : Nat) (idx : W32) : (s.dropOp c idx).slots = s.slots := rfl
@[simp] theorem State.dropOp_batches (s : State) (c : Nat) (idx : W32) : (s.dropOp c idx).batches = s.batches := rfl
@[simp] theorem State.dropOp_posted (s : State) (c : Nat) (idx : W32) : (s.dropOp c idx).posted = s.posted := rfl
@[simp] theorem State.dropOp_passes (s : State) (c : Nat) (idx : W32) : (s.dropOp c idx).passes = s.passes := rfl
@[simp] theorem State.dropOp_coreWait (s : State) (c : Nat) (idx : W32) : (s.dropOp c idx).coreWait = s.coreWait := rfl
@[simp] theorem State.dropOp_retired (s : State) (c : Nat) (idx : W32) : (s.dropOp c idx).retired = s.retired := rfl
@[simp] theorem State.dropOp_overflow (s : State) (c : Nat) (idx : W32) : (s.dropOp c idx).overflow = s.overflow := rfl
@[simp] theorem State.dropOp_runref (s : State) (c : Nat) (idx : W32) : (s.dropOp c idx).runref = s.runref := rfl
@[simp] theorem State.dropOp_out (s : State) (c : Nat) (idx : W32) : (s.dropOp c idx).out = s.out := rfl

/-! ### emit -/

@[simp] theorem State.emit_out (s : State) (o : Output) : (s.emit o).out = s.out ++ [o] := rfl
@[simp] theorem State.emit_pending (s : State) (o : Output) : (s.emit o).pending = s.pending := rfl
@[simp] theorem State.emit_free (s : State) (o : Output) : (s.emit o).free = s.free := rfl
@[simp] theorem State.emit_time (s : State) (o : Output) : (s.emit o).time = s.time := rfl
@[simp] theorem State.emit_start (s : State) (o : Output) : (s.emit o).start = s.start := rfl
@[simp] theorem State.emit_pwr (s : State) (o : Output) : (s.emit o).pwr = s.pwr := rfl
@[simp] theorem State.emit_therm (s : State) (o : Output) : (s.emit o).therm = s.therm := rfl
@[simp] theorem State.emit_sec (s : State) (o : Output) : (s.emit o).sec = s.sec := rfl
@[simp] theorem State.emit_flash (s : State) (o : Output) : (s.emit o).flash = s.flash := rfl
@[simp] theorem State.emit_mbx (s : State) (o : Output) : (s.emit o).mbx = s.mbx := rfl
@[simp] theorem State.emit_log (s : State) (o : Output) : (s.emit o).log = s.log := rfl
@[simp] theorem State.emit_sun (s : State) (o : Output) : (s.emit o).sun = s.sun := rfl
@[simp] theorem State.emit_frost (s : State) (o : Output) : (s.emit o).frost = s.frost := rfl
@[simp] theorem State.emit_fw (s : State) (o : Output) : (s.emit o).fw = s.fw := rfl
@[simp] theorem State.emit_group (s : State) (o : Output) : (s.emit o).group = s.group := rfl
@[simp] theorem State.emit_regs (s : State) (o : Output) : (s.emit o).regs = s.regs := rfl
@[simp] theorem State.emit_votes (s : State) (o : Output) : (s.emit o).votes = s.votes := rfl
@[simp] theorem State.emit_pcie (s : State) (o : Output) : (s.emit o).pcie = s.pcie := rfl
@[simp] theorem State.emit_wide (s : State) (o : Output) : (s.emit o).wide = s.wide := rfl
@[simp] theorem State.emit_perf (s : State) (o : Output) : (s.emit o).perf = s.perf := rfl
@[simp] theorem State.emit_banks (s : State) (o : Output) : (s.emit o).banks = s.banks := rfl
@[simp] theorem State.emit_mem (s : State) (o : Output) : (s.emit o).mem = s.mem := rfl
@[simp] theorem State.emit_caches (s : State) (o : Output) : (s.emit o).caches = s.caches := rfl
@[simp] theorem State.emit_clusters (s : State) (o : Output) : (s.emit o).clusters = s.clusters := rfl
@[simp] theorem State.emit_cores (s : State) (o : Output) : (s.emit o).cores = s.cores := rfl
@[simp] theorem State.emit_hbms (s : State) (o : Output) : (s.emit o).hbms = s.hbms := rfl
@[simp] theorem State.emit_links (s : State) (o : Output) : (s.emit o).links = s.links := rfl
@[simp] theorem State.emit_ports (s : State) (o : Output) : (s.emit o).ports = s.ports := rfl
@[simp] theorem State.emit_routes (s : State) (o : Output) : (s.emit o).routes = s.routes := rfl
@[simp] theorem State.emit_sets (s : State) (o : Output) : (s.emit o).sets = s.sets := rfl
@[simp] theorem State.emit_ctxs (s : State) (o : Output) : (s.emit o).ctxs = s.ctxs := rfl
@[simp] theorem State.emit_ops (s : State) (o : Output) : (s.emit o).ops = s.ops := rfl
@[simp] theorem State.emit_colls (s : State) (o : Output) : (s.emit o).colls = s.colls := rfl
@[simp] theorem State.emit_collHeld (s : State) (o : Output) : (s.emit o).collHeld = s.collHeld := rfl
@[simp] theorem State.emit_collOver (s : State) (o : Output) : (s.emit o).collOver = s.collOver := rfl
@[simp] theorem State.emit_adderQ (s : State) (o : Output) : (s.emit o).adderQ = s.adderQ := rfl
@[simp] theorem State.emit_pruneQ (s : State) (o : Output) : (s.emit o).pruneQ = s.pruneQ := rfl
@[simp] theorem State.emit_slots (s : State) (o : Output) : (s.emit o).slots = s.slots := rfl
@[simp] theorem State.emit_batches (s : State) (o : Output) : (s.emit o).batches = s.batches := rfl
@[simp] theorem State.emit_posted (s : State) (o : Output) : (s.emit o).posted = s.posted := rfl
@[simp] theorem State.emit_passes (s : State) (o : Output) : (s.emit o).passes = s.passes := rfl
@[simp] theorem State.emit_coreWait (s : State) (o : Output) : (s.emit o).coreWait = s.coreWait := rfl
@[simp] theorem State.emit_retired (s : State) (o : Output) : (s.emit o).retired = s.retired := rfl
@[simp] theorem State.emit_overflow (s : State) (o : Output) : (s.emit o).overflow = s.overflow := rfl
@[simp] theorem State.emit_runref (s : State) (o : Output) : (s.emit o).runref = s.runref := rfl

/-! ### count -/

@[simp] theorem State.count_pending (s : State) (b k n : Nat) : (s.count b k n).pending = s.pending := rfl
@[simp] theorem State.count_free (s : State) (b k n : Nat) : (s.count b k n).free = s.free := rfl
@[simp] theorem State.count_time (s : State) (b k n : Nat) : (s.count b k n).time = s.time := rfl
@[simp] theorem State.count_start (s : State) (b k n : Nat) : (s.count b k n).start = s.start := rfl
@[simp] theorem State.count_pwr (s : State) (b k n : Nat) : (s.count b k n).pwr = s.pwr := rfl
@[simp] theorem State.count_therm (s : State) (b k n : Nat) : (s.count b k n).therm = s.therm := rfl
@[simp] theorem State.count_sec (s : State) (b k n : Nat) : (s.count b k n).sec = s.sec := rfl
@[simp] theorem State.count_flash (s : State) (b k n : Nat) : (s.count b k n).flash = s.flash := rfl
@[simp] theorem State.count_mbx (s : State) (b k n : Nat) : (s.count b k n).mbx = s.mbx := rfl
@[simp] theorem State.count_log (s : State) (b k n : Nat) : (s.count b k n).log = s.log := rfl
@[simp] theorem State.count_sun (s : State) (b k n : Nat) : (s.count b k n).sun = s.sun := rfl
@[simp] theorem State.count_frost (s : State) (b k n : Nat) : (s.count b k n).frost = s.frost := rfl
@[simp] theorem State.count_fw (s : State) (b k n : Nat) : (s.count b k n).fw = s.fw := rfl
@[simp] theorem State.count_group (s : State) (b k n : Nat) : (s.count b k n).group = s.group := rfl
@[simp] theorem State.count_regs (s : State) (b k n : Nat) : (s.count b k n).regs = s.regs := rfl
@[simp] theorem State.count_votes (s : State) (b k n : Nat) : (s.count b k n).votes = s.votes := rfl
@[simp] theorem State.count_pcie (s : State) (b k n : Nat) : (s.count b k n).pcie = s.pcie := rfl
@[simp] theorem State.count_perf (s : State) (b k n : Nat) : (s.count b k n).perf = s.perf := rfl
@[simp] theorem State.count_banks (s : State) (b k n : Nat) : (s.count b k n).banks = s.banks := rfl
@[simp] theorem State.count_mem (s : State) (b k n : Nat) : (s.count b k n).mem = s.mem := rfl
@[simp] theorem State.count_caches (s : State) (b k n : Nat) : (s.count b k n).caches = s.caches := rfl
@[simp] theorem State.count_clusters (s : State) (b k n : Nat) : (s.count b k n).clusters = s.clusters := rfl
@[simp] theorem State.count_cores (s : State) (b k n : Nat) : (s.count b k n).cores = s.cores := rfl
@[simp] theorem State.count_hbms (s : State) (b k n : Nat) : (s.count b k n).hbms = s.hbms := rfl
@[simp] theorem State.count_links (s : State) (b k n : Nat) : (s.count b k n).links = s.links := rfl
@[simp] theorem State.count_ports (s : State) (b k n : Nat) : (s.count b k n).ports = s.ports := rfl
@[simp] theorem State.count_routes (s : State) (b k n : Nat) : (s.count b k n).routes = s.routes := rfl
@[simp] theorem State.count_sets (s : State) (b k n : Nat) : (s.count b k n).sets = s.sets := rfl
@[simp] theorem State.count_ctxs (s : State) (b k n : Nat) : (s.count b k n).ctxs = s.ctxs := rfl
@[simp] theorem State.count_ops (s : State) (b k n : Nat) : (s.count b k n).ops = s.ops := rfl
@[simp] theorem State.count_colls (s : State) (b k n : Nat) : (s.count b k n).colls = s.colls := rfl
@[simp] theorem State.count_collHeld (s : State) (b k n : Nat) : (s.count b k n).collHeld = s.collHeld := rfl
@[simp] theorem State.count_collOver (s : State) (b k n : Nat) : (s.count b k n).collOver = s.collOver := rfl
@[simp] theorem State.count_adderQ (s : State) (b k n : Nat) : (s.count b k n).adderQ = s.adderQ := rfl
@[simp] theorem State.count_pruneQ (s : State) (b k n : Nat) : (s.count b k n).pruneQ = s.pruneQ := rfl
@[simp] theorem State.count_slots (s : State) (b k n : Nat) : (s.count b k n).slots = s.slots := rfl
@[simp] theorem State.count_batches (s : State) (b k n : Nat) : (s.count b k n).batches = s.batches := rfl
@[simp] theorem State.count_posted (s : State) (b k n : Nat) : (s.count b k n).posted = s.posted := rfl
@[simp] theorem State.count_passes (s : State) (b k n : Nat) : (s.count b k n).passes = s.passes := rfl
@[simp] theorem State.count_coreWait (s : State) (b k n : Nat) : (s.count b k n).coreWait = s.coreWait := rfl
@[simp] theorem State.count_retired (s : State) (b k n : Nat) : (s.count b k n).retired = s.retired := rfl
@[simp] theorem State.count_overflow (s : State) (b k n : Nat) : (s.count b k n).overflow = s.overflow := rfl
@[simp] theorem State.count_runref (s : State) (b k n : Nat) : (s.count b k n).runref = s.runref := rfl
@[simp] theorem State.count_out (s : State) (b k n : Nat) : (s.count b k n).out = s.out := rfl

/-! ### setCounter -/

@[simp] theorem State.setCounter_pending (s : State) (b k v : Nat) : (s.setCounter b k v).pending = s.pending := rfl
@[simp] theorem State.setCounter_free (s : State) (b k v : Nat) : (s.setCounter b k v).free = s.free := rfl
@[simp] theorem State.setCounter_time (s : State) (b k v : Nat) : (s.setCounter b k v).time = s.time := rfl
@[simp] theorem State.setCounter_start (s : State) (b k v : Nat) : (s.setCounter b k v).start = s.start := rfl
@[simp] theorem State.setCounter_pwr (s : State) (b k v : Nat) : (s.setCounter b k v).pwr = s.pwr := rfl
@[simp] theorem State.setCounter_therm (s : State) (b k v : Nat) : (s.setCounter b k v).therm = s.therm := rfl
@[simp] theorem State.setCounter_sec (s : State) (b k v : Nat) : (s.setCounter b k v).sec = s.sec := rfl
@[simp] theorem State.setCounter_flash (s : State) (b k v : Nat) : (s.setCounter b k v).flash = s.flash := rfl
@[simp] theorem State.setCounter_mbx (s : State) (b k v : Nat) : (s.setCounter b k v).mbx = s.mbx := rfl
@[simp] theorem State.setCounter_log (s : State) (b k v : Nat) : (s.setCounter b k v).log = s.log := rfl
@[simp] theorem State.setCounter_sun (s : State) (b k v : Nat) : (s.setCounter b k v).sun = s.sun := rfl
@[simp] theorem State.setCounter_frost (s : State) (b k v : Nat) : (s.setCounter b k v).frost = s.frost := rfl
@[simp] theorem State.setCounter_fw (s : State) (b k v : Nat) : (s.setCounter b k v).fw = s.fw := rfl
@[simp] theorem State.setCounter_group (s : State) (b k v : Nat) : (s.setCounter b k v).group = s.group := rfl
@[simp] theorem State.setCounter_regs (s : State) (b k v : Nat) : (s.setCounter b k v).regs = s.regs := rfl
@[simp] theorem State.setCounter_votes (s : State) (b k v : Nat) : (s.setCounter b k v).votes = s.votes := rfl
@[simp] theorem State.setCounter_pcie (s : State) (b k v : Nat) : (s.setCounter b k v).pcie = s.pcie := rfl
@[simp] theorem State.setCounter_perf (s : State) (b k v : Nat) : (s.setCounter b k v).perf = s.perf := rfl
@[simp] theorem State.setCounter_banks (s : State) (b k v : Nat) : (s.setCounter b k v).banks = s.banks := rfl
@[simp] theorem State.setCounter_mem (s : State) (b k v : Nat) : (s.setCounter b k v).mem = s.mem := rfl
@[simp] theorem State.setCounter_caches (s : State) (b k v : Nat) : (s.setCounter b k v).caches = s.caches := rfl
@[simp] theorem State.setCounter_clusters (s : State) (b k v : Nat) : (s.setCounter b k v).clusters = s.clusters := rfl
@[simp] theorem State.setCounter_cores (s : State) (b k v : Nat) : (s.setCounter b k v).cores = s.cores := rfl
@[simp] theorem State.setCounter_hbms (s : State) (b k v : Nat) : (s.setCounter b k v).hbms = s.hbms := rfl
@[simp] theorem State.setCounter_links (s : State) (b k v : Nat) : (s.setCounter b k v).links = s.links := rfl
@[simp] theorem State.setCounter_ports (s : State) (b k v : Nat) : (s.setCounter b k v).ports = s.ports := rfl
@[simp] theorem State.setCounter_routes (s : State) (b k v : Nat) : (s.setCounter b k v).routes = s.routes := rfl
@[simp] theorem State.setCounter_sets (s : State) (b k v : Nat) : (s.setCounter b k v).sets = s.sets := rfl
@[simp] theorem State.setCounter_ctxs (s : State) (b k v : Nat) : (s.setCounter b k v).ctxs = s.ctxs := rfl
@[simp] theorem State.setCounter_ops (s : State) (b k v : Nat) : (s.setCounter b k v).ops = s.ops := rfl
@[simp] theorem State.setCounter_colls (s : State) (b k v : Nat) : (s.setCounter b k v).colls = s.colls := rfl
@[simp] theorem State.setCounter_collHeld (s : State) (b k v : Nat) : (s.setCounter b k v).collHeld = s.collHeld := rfl
@[simp] theorem State.setCounter_collOver (s : State) (b k v : Nat) : (s.setCounter b k v).collOver = s.collOver := rfl
@[simp] theorem State.setCounter_adderQ (s : State) (b k v : Nat) : (s.setCounter b k v).adderQ = s.adderQ := rfl
@[simp] theorem State.setCounter_pruneQ (s : State) (b k v : Nat) : (s.setCounter b k v).pruneQ = s.pruneQ := rfl
@[simp] theorem State.setCounter_slots (s : State) (b k v : Nat) : (s.setCounter b k v).slots = s.slots := rfl
@[simp] theorem State.setCounter_batches (s : State) (b k v : Nat) : (s.setCounter b k v).batches = s.batches := rfl
@[simp] theorem State.setCounter_posted (s : State) (b k v : Nat) : (s.setCounter b k v).posted = s.posted := rfl
@[simp] theorem State.setCounter_passes (s : State) (b k v : Nat) : (s.setCounter b k v).passes = s.passes := rfl
@[simp] theorem State.setCounter_coreWait (s : State) (b k v : Nat) : (s.setCounter b k v).coreWait = s.coreWait := rfl
@[simp] theorem State.setCounter_retired (s : State) (b k v : Nat) : (s.setCounter b k v).retired = s.retired := rfl
@[simp] theorem State.setCounter_overflow (s : State) (b k v : Nat) : (s.setCounter b k v).overflow = s.overflow := rfl
@[simp] theorem State.setCounter_runref (s : State) (b k v : Nat) : (s.setCounter b k v).runref = s.runref := rfl
@[simp] theorem State.setCounter_out (s : State) (b k v : Nat) : (s.setCounter b k v).out = s.out := rfl

/-! ### perfAdd -/

@[simp] theorem State.perfAdd_pending (s : State) (w : Who) (k n : Nat) : (s.perfAdd w k n).pending = s.pending := rfl
@[simp] theorem State.perfAdd_free (s : State) (w : Who) (k n : Nat) : (s.perfAdd w k n).free = s.free := rfl
@[simp] theorem State.perfAdd_time (s : State) (w : Who) (k n : Nat) : (s.perfAdd w k n).time = s.time := rfl
@[simp] theorem State.perfAdd_start (s : State) (w : Who) (k n : Nat) : (s.perfAdd w k n).start = s.start := rfl
@[simp] theorem State.perfAdd_pwr (s : State) (w : Who) (k n : Nat) : (s.perfAdd w k n).pwr = s.pwr := rfl
@[simp] theorem State.perfAdd_therm (s : State) (w : Who) (k n : Nat) : (s.perfAdd w k n).therm = s.therm := rfl
@[simp] theorem State.perfAdd_sec (s : State) (w : Who) (k n : Nat) : (s.perfAdd w k n).sec = s.sec := rfl
@[simp] theorem State.perfAdd_flash (s : State) (w : Who) (k n : Nat) : (s.perfAdd w k n).flash = s.flash := rfl
@[simp] theorem State.perfAdd_mbx (s : State) (w : Who) (k n : Nat) : (s.perfAdd w k n).mbx = s.mbx := rfl
@[simp] theorem State.perfAdd_log (s : State) (w : Who) (k n : Nat) : (s.perfAdd w k n).log = s.log := rfl
@[simp] theorem State.perfAdd_sun (s : State) (w : Who) (k n : Nat) : (s.perfAdd w k n).sun = s.sun := rfl
@[simp] theorem State.perfAdd_frost (s : State) (w : Who) (k n : Nat) : (s.perfAdd w k n).frost = s.frost := rfl
@[simp] theorem State.perfAdd_fw (s : State) (w : Who) (k n : Nat) : (s.perfAdd w k n).fw = s.fw := rfl
@[simp] theorem State.perfAdd_group (s : State) (w : Who) (k n : Nat) : (s.perfAdd w k n).group = s.group := rfl
@[simp] theorem State.perfAdd_regs (s : State) (w : Who) (k n : Nat) : (s.perfAdd w k n).regs = s.regs := rfl
@[simp] theorem State.perfAdd_votes (s : State) (w : Who) (k n : Nat) : (s.perfAdd w k n).votes = s.votes := rfl
@[simp] theorem State.perfAdd_pcie (s : State) (w : Who) (k n : Nat) : (s.perfAdd w k n).pcie = s.pcie := rfl
@[simp] theorem State.perfAdd_wide (s : State) (w : Who) (k n : Nat) : (s.perfAdd w k n).wide = s.wide := rfl
@[simp] theorem State.perfAdd_banks (s : State) (w : Who) (k n : Nat) : (s.perfAdd w k n).banks = s.banks := rfl
@[simp] theorem State.perfAdd_mem (s : State) (w : Who) (k n : Nat) : (s.perfAdd w k n).mem = s.mem := rfl
@[simp] theorem State.perfAdd_caches (s : State) (w : Who) (k n : Nat) : (s.perfAdd w k n).caches = s.caches := rfl
@[simp] theorem State.perfAdd_clusters (s : State) (w : Who) (k n : Nat) : (s.perfAdd w k n).clusters = s.clusters := rfl
@[simp] theorem State.perfAdd_cores (s : State) (w : Who) (k n : Nat) : (s.perfAdd w k n).cores = s.cores := rfl
@[simp] theorem State.perfAdd_hbms (s : State) (w : Who) (k n : Nat) : (s.perfAdd w k n).hbms = s.hbms := rfl
@[simp] theorem State.perfAdd_links (s : State) (w : Who) (k n : Nat) : (s.perfAdd w k n).links = s.links := rfl
@[simp] theorem State.perfAdd_ports (s : State) (w : Who) (k n : Nat) : (s.perfAdd w k n).ports = s.ports := rfl
@[simp] theorem State.perfAdd_routes (s : State) (w : Who) (k n : Nat) : (s.perfAdd w k n).routes = s.routes := rfl
@[simp] theorem State.perfAdd_sets (s : State) (w : Who) (k n : Nat) : (s.perfAdd w k n).sets = s.sets := rfl
@[simp] theorem State.perfAdd_ctxs (s : State) (w : Who) (k n : Nat) : (s.perfAdd w k n).ctxs = s.ctxs := rfl
@[simp] theorem State.perfAdd_ops (s : State) (w : Who) (k n : Nat) : (s.perfAdd w k n).ops = s.ops := rfl
@[simp] theorem State.perfAdd_colls (s : State) (w : Who) (k n : Nat) : (s.perfAdd w k n).colls = s.colls := rfl
@[simp] theorem State.perfAdd_collHeld (s : State) (w : Who) (k n : Nat) : (s.perfAdd w k n).collHeld = s.collHeld := rfl
@[simp] theorem State.perfAdd_collOver (s : State) (w : Who) (k n : Nat) : (s.perfAdd w k n).collOver = s.collOver := rfl
@[simp] theorem State.perfAdd_adderQ (s : State) (w : Who) (k n : Nat) : (s.perfAdd w k n).adderQ = s.adderQ := rfl
@[simp] theorem State.perfAdd_pruneQ (s : State) (w : Who) (k n : Nat) : (s.perfAdd w k n).pruneQ = s.pruneQ := rfl
@[simp] theorem State.perfAdd_slots (s : State) (w : Who) (k n : Nat) : (s.perfAdd w k n).slots = s.slots := rfl
@[simp] theorem State.perfAdd_batches (s : State) (w : Who) (k n : Nat) : (s.perfAdd w k n).batches = s.batches := rfl
@[simp] theorem State.perfAdd_posted (s : State) (w : Who) (k n : Nat) : (s.perfAdd w k n).posted = s.posted := rfl
@[simp] theorem State.perfAdd_passes (s : State) (w : Who) (k n : Nat) : (s.perfAdd w k n).passes = s.passes := rfl
@[simp] theorem State.perfAdd_coreWait (s : State) (w : Who) (k n : Nat) : (s.perfAdd w k n).coreWait = s.coreWait := rfl
@[simp] theorem State.perfAdd_retired (s : State) (w : Who) (k n : Nat) : (s.perfAdd w k n).retired = s.retired := rfl
@[simp] theorem State.perfAdd_overflow (s : State) (w : Who) (k n : Nat) : (s.perfAdd w k n).overflow = s.overflow := rfl
@[simp] theorem State.perfAdd_runref (s : State) (w : Who) (k n : Nat) : (s.perfAdd w k n).runref = s.runref := rfl
@[simp] theorem State.perfAdd_out (s : State) (w : Who) (k n : Nat) : (s.perfAdd w k n).out = s.out := rfl

/-! ### perfClear -/

@[simp] theorem State.perfClear_pending (s : State) (k n : Nat) : (s.perfClear k n).pending = s.pending := rfl
@[simp] theorem State.perfClear_free (s : State) (k n : Nat) : (s.perfClear k n).free = s.free := rfl
@[simp] theorem State.perfClear_time (s : State) (k n : Nat) : (s.perfClear k n).time = s.time := rfl
@[simp] theorem State.perfClear_start (s : State) (k n : Nat) : (s.perfClear k n).start = s.start := rfl
@[simp] theorem State.perfClear_pwr (s : State) (k n : Nat) : (s.perfClear k n).pwr = s.pwr := rfl
@[simp] theorem State.perfClear_therm (s : State) (k n : Nat) : (s.perfClear k n).therm = s.therm := rfl
@[simp] theorem State.perfClear_sec (s : State) (k n : Nat) : (s.perfClear k n).sec = s.sec := rfl
@[simp] theorem State.perfClear_flash (s : State) (k n : Nat) : (s.perfClear k n).flash = s.flash := rfl
@[simp] theorem State.perfClear_mbx (s : State) (k n : Nat) : (s.perfClear k n).mbx = s.mbx := rfl
@[simp] theorem State.perfClear_log (s : State) (k n : Nat) : (s.perfClear k n).log = s.log := rfl
@[simp] theorem State.perfClear_sun (s : State) (k n : Nat) : (s.perfClear k n).sun = s.sun := rfl
@[simp] theorem State.perfClear_frost (s : State) (k n : Nat) : (s.perfClear k n).frost = s.frost := rfl
@[simp] theorem State.perfClear_fw (s : State) (k n : Nat) : (s.perfClear k n).fw = s.fw := rfl
@[simp] theorem State.perfClear_group (s : State) (k n : Nat) : (s.perfClear k n).group = s.group := rfl
@[simp] theorem State.perfClear_regs (s : State) (k n : Nat) : (s.perfClear k n).regs = s.regs := rfl
@[simp] theorem State.perfClear_votes (s : State) (k n : Nat) : (s.perfClear k n).votes = s.votes := rfl
@[simp] theorem State.perfClear_pcie (s : State) (k n : Nat) : (s.perfClear k n).pcie = s.pcie := rfl
@[simp] theorem State.perfClear_wide (s : State) (k n : Nat) : (s.perfClear k n).wide = s.wide := rfl
@[simp] theorem State.perfClear_banks (s : State) (k n : Nat) : (s.perfClear k n).banks = s.banks := rfl
@[simp] theorem State.perfClear_mem (s : State) (k n : Nat) : (s.perfClear k n).mem = s.mem := rfl
@[simp] theorem State.perfClear_caches (s : State) (k n : Nat) : (s.perfClear k n).caches = s.caches := rfl
@[simp] theorem State.perfClear_clusters (s : State) (k n : Nat) : (s.perfClear k n).clusters = s.clusters := rfl
@[simp] theorem State.perfClear_cores (s : State) (k n : Nat) : (s.perfClear k n).cores = s.cores := rfl
@[simp] theorem State.perfClear_hbms (s : State) (k n : Nat) : (s.perfClear k n).hbms = s.hbms := rfl
@[simp] theorem State.perfClear_links (s : State) (k n : Nat) : (s.perfClear k n).links = s.links := rfl
@[simp] theorem State.perfClear_ports (s : State) (k n : Nat) : (s.perfClear k n).ports = s.ports := rfl
@[simp] theorem State.perfClear_routes (s : State) (k n : Nat) : (s.perfClear k n).routes = s.routes := rfl
@[simp] theorem State.perfClear_sets (s : State) (k n : Nat) : (s.perfClear k n).sets = s.sets := rfl
@[simp] theorem State.perfClear_ctxs (s : State) (k n : Nat) : (s.perfClear k n).ctxs = s.ctxs := rfl
@[simp] theorem State.perfClear_ops (s : State) (k n : Nat) : (s.perfClear k n).ops = s.ops := rfl
@[simp] theorem State.perfClear_colls (s : State) (k n : Nat) : (s.perfClear k n).colls = s.colls := rfl
@[simp] theorem State.perfClear_collHeld (s : State) (k n : Nat) : (s.perfClear k n).collHeld = s.collHeld := rfl
@[simp] theorem State.perfClear_collOver (s : State) (k n : Nat) : (s.perfClear k n).collOver = s.collOver := rfl
@[simp] theorem State.perfClear_adderQ (s : State) (k n : Nat) : (s.perfClear k n).adderQ = s.adderQ := rfl
@[simp] theorem State.perfClear_pruneQ (s : State) (k n : Nat) : (s.perfClear k n).pruneQ = s.pruneQ := rfl
@[simp] theorem State.perfClear_slots (s : State) (k n : Nat) : (s.perfClear k n).slots = s.slots := rfl
@[simp] theorem State.perfClear_batches (s : State) (k n : Nat) : (s.perfClear k n).batches = s.batches := rfl
@[simp] theorem State.perfClear_posted (s : State) (k n : Nat) : (s.perfClear k n).posted = s.posted := rfl
@[simp] theorem State.perfClear_passes (s : State) (k n : Nat) : (s.perfClear k n).passes = s.passes := rfl
@[simp] theorem State.perfClear_coreWait (s : State) (k n : Nat) : (s.perfClear k n).coreWait = s.coreWait := rfl
@[simp] theorem State.perfClear_retired (s : State) (k n : Nat) : (s.perfClear k n).retired = s.retired := rfl
@[simp] theorem State.perfClear_overflow (s : State) (k n : Nat) : (s.perfClear k n).overflow = s.overflow := rfl
@[simp] theorem State.perfClear_runref (s : State) (k n : Nat) : (s.perfClear k n).runref = s.runref := rfl
@[simp] theorem State.perfClear_out (s : State) (k n : Nat) : (s.perfClear k n).out = s.out := rfl

/-! ### msix -/

@[simp] theorem State.msix_out (s : State) (v : Nat) : (s.msix v).out = s.out ++ [.msix v] := rfl
@[simp] theorem State.msix_pending (s : State) (v : Nat) : (s.msix v).pending = s.pending := rfl
@[simp] theorem State.msix_free (s : State) (v : Nat) : (s.msix v).free = s.free := rfl
@[simp] theorem State.msix_time (s : State) (v : Nat) : (s.msix v).time = s.time := rfl
@[simp] theorem State.msix_start (s : State) (v : Nat) : (s.msix v).start = s.start := rfl
@[simp] theorem State.msix_pwr (s : State) (v : Nat) : (s.msix v).pwr = s.pwr := rfl
@[simp] theorem State.msix_therm (s : State) (v : Nat) : (s.msix v).therm = s.therm := rfl
@[simp] theorem State.msix_sec (s : State) (v : Nat) : (s.msix v).sec = s.sec := rfl
@[simp] theorem State.msix_flash (s : State) (v : Nat) : (s.msix v).flash = s.flash := rfl
@[simp] theorem State.msix_mbx (s : State) (v : Nat) : (s.msix v).mbx = s.mbx := rfl
@[simp] theorem State.msix_log (s : State) (v : Nat) : (s.msix v).log = s.log := rfl
@[simp] theorem State.msix_sun (s : State) (v : Nat) : (s.msix v).sun = s.sun := rfl
@[simp] theorem State.msix_frost (s : State) (v : Nat) : (s.msix v).frost = s.frost := rfl
@[simp] theorem State.msix_fw (s : State) (v : Nat) : (s.msix v).fw = s.fw := rfl
@[simp] theorem State.msix_group (s : State) (v : Nat) : (s.msix v).group = s.group := rfl
@[simp] theorem State.msix_regs (s : State) (v : Nat) : (s.msix v).regs = s.regs := rfl
@[simp] theorem State.msix_votes (s : State) (v : Nat) : (s.msix v).votes = s.votes := rfl
@[simp] theorem State.msix_pcie (s : State) (v : Nat) : (s.msix v).pcie = s.pcie := rfl
@[simp] theorem State.msix_wide (s : State) (v : Nat) : (s.msix v).wide = s.wide := rfl
@[simp] theorem State.msix_perf (s : State) (v : Nat) : (s.msix v).perf = s.perf := rfl
@[simp] theorem State.msix_banks (s : State) (v : Nat) : (s.msix v).banks = s.banks := rfl
@[simp] theorem State.msix_mem (s : State) (v : Nat) : (s.msix v).mem = s.mem := rfl
@[simp] theorem State.msix_caches (s : State) (v : Nat) : (s.msix v).caches = s.caches := rfl
@[simp] theorem State.msix_clusters (s : State) (v : Nat) : (s.msix v).clusters = s.clusters := rfl
@[simp] theorem State.msix_cores (s : State) (v : Nat) : (s.msix v).cores = s.cores := rfl
@[simp] theorem State.msix_hbms (s : State) (v : Nat) : (s.msix v).hbms = s.hbms := rfl
@[simp] theorem State.msix_links (s : State) (v : Nat) : (s.msix v).links = s.links := rfl
@[simp] theorem State.msix_ports (s : State) (v : Nat) : (s.msix v).ports = s.ports := rfl
@[simp] theorem State.msix_routes (s : State) (v : Nat) : (s.msix v).routes = s.routes := rfl
@[simp] theorem State.msix_sets (s : State) (v : Nat) : (s.msix v).sets = s.sets := rfl
@[simp] theorem State.msix_ctxs (s : State) (v : Nat) : (s.msix v).ctxs = s.ctxs := rfl
@[simp] theorem State.msix_ops (s : State) (v : Nat) : (s.msix v).ops = s.ops := rfl
@[simp] theorem State.msix_colls (s : State) (v : Nat) : (s.msix v).colls = s.colls := rfl
@[simp] theorem State.msix_collHeld (s : State) (v : Nat) : (s.msix v).collHeld = s.collHeld := rfl
@[simp] theorem State.msix_collOver (s : State) (v : Nat) : (s.msix v).collOver = s.collOver := rfl
@[simp] theorem State.msix_adderQ (s : State) (v : Nat) : (s.msix v).adderQ = s.adderQ := rfl
@[simp] theorem State.msix_pruneQ (s : State) (v : Nat) : (s.msix v).pruneQ = s.pruneQ := rfl
@[simp] theorem State.msix_slots (s : State) (v : Nat) : (s.msix v).slots = s.slots := rfl
@[simp] theorem State.msix_batches (s : State) (v : Nat) : (s.msix v).batches = s.batches := rfl
@[simp] theorem State.msix_posted (s : State) (v : Nat) : (s.msix v).posted = s.posted := rfl
@[simp] theorem State.msix_passes (s : State) (v : Nat) : (s.msix v).passes = s.passes := rfl
@[simp] theorem State.msix_coreWait (s : State) (v : Nat) : (s.msix v).coreWait = s.coreWait := rfl
@[simp] theorem State.msix_retired (s : State) (v : Nat) : (s.msix v).retired = s.retired := rfl
@[simp] theorem State.msix_overflow (s : State) (v : Nat) : (s.msix v).overflow = s.overflow := rfl
@[simp] theorem State.msix_runref (s : State) (v : Nat) : (s.msix v).runref = s.runref := rfl

/-! ### modGroup -/

@[simp] theorem State.modGroup_group (s : State) (f : GroupState → GroupState) : (s.modGroup f).group = f s.group := rfl
@[simp] theorem State.modGroup_pending (s : State) (f : GroupState → GroupState) : (s.modGroup f).pending = s.pending := rfl
@[simp] theorem State.modGroup_free (s : State) (f : GroupState → GroupState) : (s.modGroup f).free = s.free := rfl
@[simp] theorem State.modGroup_time (s : State) (f : GroupState → GroupState) : (s.modGroup f).time = s.time := rfl
@[simp] theorem State.modGroup_start (s : State) (f : GroupState → GroupState) : (s.modGroup f).start = s.start := rfl
@[simp] theorem State.modGroup_pwr (s : State) (f : GroupState → GroupState) : (s.modGroup f).pwr = s.pwr := rfl
@[simp] theorem State.modGroup_therm (s : State) (f : GroupState → GroupState) : (s.modGroup f).therm = s.therm := rfl
@[simp] theorem State.modGroup_sec (s : State) (f : GroupState → GroupState) : (s.modGroup f).sec = s.sec := rfl
@[simp] theorem State.modGroup_flash (s : State) (f : GroupState → GroupState) : (s.modGroup f).flash = s.flash := rfl
@[simp] theorem State.modGroup_mbx (s : State) (f : GroupState → GroupState) : (s.modGroup f).mbx = s.mbx := rfl
@[simp] theorem State.modGroup_log (s : State) (f : GroupState → GroupState) : (s.modGroup f).log = s.log := rfl
@[simp] theorem State.modGroup_sun (s : State) (f : GroupState → GroupState) : (s.modGroup f).sun = s.sun := rfl
@[simp] theorem State.modGroup_frost (s : State) (f : GroupState → GroupState) : (s.modGroup f).frost = s.frost := rfl
@[simp] theorem State.modGroup_fw (s : State) (f : GroupState → GroupState) : (s.modGroup f).fw = s.fw := rfl
@[simp] theorem State.modGroup_regs (s : State) (f : GroupState → GroupState) : (s.modGroup f).regs = s.regs := rfl
@[simp] theorem State.modGroup_votes (s : State) (f : GroupState → GroupState) : (s.modGroup f).votes = s.votes := rfl
@[simp] theorem State.modGroup_pcie (s : State) (f : GroupState → GroupState) : (s.modGroup f).pcie = s.pcie := rfl
@[simp] theorem State.modGroup_wide (s : State) (f : GroupState → GroupState) : (s.modGroup f).wide = s.wide := rfl
@[simp] theorem State.modGroup_perf (s : State) (f : GroupState → GroupState) : (s.modGroup f).perf = s.perf := rfl
@[simp] theorem State.modGroup_banks (s : State) (f : GroupState → GroupState) : (s.modGroup f).banks = s.banks := rfl
@[simp] theorem State.modGroup_mem (s : State) (f : GroupState → GroupState) : (s.modGroup f).mem = s.mem := rfl
@[simp] theorem State.modGroup_caches (s : State) (f : GroupState → GroupState) : (s.modGroup f).caches = s.caches := rfl
@[simp] theorem State.modGroup_clusters (s : State) (f : GroupState → GroupState) : (s.modGroup f).clusters = s.clusters := rfl
@[simp] theorem State.modGroup_cores (s : State) (f : GroupState → GroupState) : (s.modGroup f).cores = s.cores := rfl
@[simp] theorem State.modGroup_hbms (s : State) (f : GroupState → GroupState) : (s.modGroup f).hbms = s.hbms := rfl
@[simp] theorem State.modGroup_links (s : State) (f : GroupState → GroupState) : (s.modGroup f).links = s.links := rfl
@[simp] theorem State.modGroup_ports (s : State) (f : GroupState → GroupState) : (s.modGroup f).ports = s.ports := rfl
@[simp] theorem State.modGroup_routes (s : State) (f : GroupState → GroupState) : (s.modGroup f).routes = s.routes := rfl
@[simp] theorem State.modGroup_sets (s : State) (f : GroupState → GroupState) : (s.modGroup f).sets = s.sets := rfl
@[simp] theorem State.modGroup_ctxs (s : State) (f : GroupState → GroupState) : (s.modGroup f).ctxs = s.ctxs := rfl
@[simp] theorem State.modGroup_ops (s : State) (f : GroupState → GroupState) : (s.modGroup f).ops = s.ops := rfl
@[simp] theorem State.modGroup_colls (s : State) (f : GroupState → GroupState) : (s.modGroup f).colls = s.colls := rfl
@[simp] theorem State.modGroup_collHeld (s : State) (f : GroupState → GroupState) : (s.modGroup f).collHeld = s.collHeld := rfl
@[simp] theorem State.modGroup_collOver (s : State) (f : GroupState → GroupState) : (s.modGroup f).collOver = s.collOver := rfl
@[simp] theorem State.modGroup_adderQ (s : State) (f : GroupState → GroupState) : (s.modGroup f).adderQ = s.adderQ := rfl
@[simp] theorem State.modGroup_pruneQ (s : State) (f : GroupState → GroupState) : (s.modGroup f).pruneQ = s.pruneQ := rfl
@[simp] theorem State.modGroup_slots (s : State) (f : GroupState → GroupState) : (s.modGroup f).slots = s.slots := rfl
@[simp] theorem State.modGroup_batches (s : State) (f : GroupState → GroupState) : (s.modGroup f).batches = s.batches := rfl
@[simp] theorem State.modGroup_posted (s : State) (f : GroupState → GroupState) : (s.modGroup f).posted = s.posted := rfl
@[simp] theorem State.modGroup_passes (s : State) (f : GroupState → GroupState) : (s.modGroup f).passes = s.passes := rfl
@[simp] theorem State.modGroup_coreWait (s : State) (f : GroupState → GroupState) : (s.modGroup f).coreWait = s.coreWait := rfl
@[simp] theorem State.modGroup_retired (s : State) (f : GroupState → GroupState) : (s.modGroup f).retired = s.retired := rfl
@[simp] theorem State.modGroup_overflow (s : State) (f : GroupState → GroupState) : (s.modGroup f).overflow = s.overflow := rfl
@[simp] theorem State.modGroup_runref (s : State) (f : GroupState → GroupState) : (s.modGroup f).runref = s.runref := rfl
@[simp] theorem State.modGroup_out (s : State) (f : GroupState → GroupState) : (s.modGroup f).out = s.out := rfl

end Sys2Proof.Machine
end

