-- ==== Sys2Proof/Laws/Stream.lean ====
section
/-! SUPPORT. What the shared operations of the command streams do: writing at a home, the status block, a completion record, the
completion of a command, the advance of SQ_HEAD. -/

namespace Sys2Proof.Machine

open Sys2Proof

theorem State.foldl_field {α β : Type} (g : State → β) (f : State → α → State) (h : ∀ s a, g (f s a) = g s) (l : List α) :
    ∀ s : State, g (l.foldl f s) = g s := by
  induction l with
  | nil => intro s; rfl
  | cons a t ih => intro s; rw [List.foldl_cons, ih, h]

/-! ### Writing at a home changes memory, counters, TRL_EVENT, error bits and the count of free values -/

theorem State.perfAdd_spec (s : State) (w : Who) (k n : Nat) : ∃ p, s.perfAdd w k n = { s with perf := p } := ⟨_, rfl⟩

theorem State.readSector_spec (s : State) (k : Nat) :
    ∃ w f h, s.readSector k = { s with wide := w, free := f, hbms := h } := ⟨_, _, _, rfl⟩

theorem State.arbitrate_spec (s : State) (v : Via) (a n : Nat) : ∃ f p, s.arbitrate v a n = { s with free := f, perf := p } := by
  unfold State.arbitrate
  split
  · rename_i k off _
    split
    · obtain ⟨p, h⟩ := State.perfAdd_spec { s with free := s.free + 1 } (v.who k) 0x0F
        (min (unitsIn 64 a n).length (Config.readError s.free))
      exact ⟨_, p, h⟩
    · exact ⟨s.free, s.perf, rfl⟩
  · exact ⟨s.free, s.perf, rfl⟩

theorem State.storeHome_spec (s : State) (v : Via) (a : Nat) (bs : List Byte) (bad : List Nat) :
    ∃ w r f p h, s.storeHome v a bs bad
      = { s with mem := s.mem.store a bs bad, wide := w, regs := r, free := f, perf := p, hbms := h } := by
  have fold : ∀ (l : List Nat) (s : State), ∃ w f h,
      l.foldl (fun (s : State) k => (s.readSector k).count (blkHbm (stackOf (64 * k))) 0x08 1) s
        = { s with wide := w, free := f, hbms := h } := by
    intro l
    induction l with
    | nil => intro s; exact ⟨s.wide, s.free, s.hbms, rfl⟩
    | cons k t ih =>
      intro s
      obtain ⟨w, f, h, e⟩ := s.readSector_spec k
      obtain ⟨w2, f2, h2, e2⟩ := ih ((s.readSector k).count (blkHbm (stackOf (64 * k))) 0x08 1)
      exact ⟨w2, f2, h2, by rw [List.foldl_cons, e2, e]; rfl⟩
  have sectors : ∃ w f h, (if isHbm a then (partSectors a bs.length).foldl
      (fun (s : State) k => (s.readSector k).count (blkHbm (stackOf (64 * k))) 0x08 1) (s.setMem (s.mem.store a bs bad))
      else s.setMem (s.mem.store a bs bad)) = { s with mem := s.mem.store a bs bad, wide := w, free := f, hbms := h } := by
    split
    · obtain ⟨w, f, h, e⟩ := fold (partSectors a bs.length) (s.setMem (s.mem.store a bs bad))
      exact ⟨w, f, h, e⟩
    · exact ⟨s.wide, s.free, s.hbms, rfl⟩
  obtain ⟨w, f, h, e⟩ := sectors
  unfold State.storeHome
  simp only [e]
  obtain ⟨f2, p, e2⟩ :=
    State.arbitrate_spec { s with mem := s.mem.store a bs bad, wide := w, free := f, hbms := h } v a bs.length
  simp only [e2]
  split
  · exact ⟨_, _, _, _, _, rfl⟩
  · exact ⟨_, _, _, _, _, rfl⟩

@[simp] theorem State.storeHome_mem (s : State) (v : Via) (a : Nat) (bs : List Byte) (bad : List Nat) :
    (s.storeHome v a bs bad).mem = s.mem.store a bs bad := by
  obtain ⟨_, _, _, _, _, e⟩ := s.storeHome_spec v a bs bad; rw [e]

/-- A part of the state that a write at a home leaves: neither memory, counters, registers, error bits nor the count of free values. -/
def LeftByStores {β : Type} (g : State → β) : Prop :=
  ∀ (s : State) m w r f p h, g { s with mem := m, wide := w, regs := r, free := f, perf := p, hbms := h } = g s

theorem State.storeHome_keep {β : Type} (g : State → β) (hg : LeftByStores g)
    (s : State) (v : Via) (a : Nat) (bs : List Byte) (bad : List Nat) : g (s.storeHome v a bs bad) = g s := by
  obtain ⟨w, r, f, p, h, e⟩ := s.storeHome_spec v a bs bad; rw [e, hg]

/-- The status block is the only memory that `putCsb` writes. -/
theorem State.putCsb_mem (s : State) (c : Nat) (x : Context) (h : s.ctx c = some x) :
    (s.putCsb c).mem = s.mem.store x.csb.toNat (csbBytes x s.time.now) [] := by
  simp [State.putCsb, h]

theorem State.putCsb_keep {β : Type} (g : State → β) (hg : LeftByStores g) (s : State) (c : Nat) : g (s.putCsb c) = g s := by
  unfold State.putCsb
  split
  · rfl
  · exact State.storeHome_keep g hg _ _ _ _ _

/-- While no Frost holds the device, the status block is the only memory that `writeCsb` writes. -/
theorem State.writeCsb_mem (s : State) (c : Nat) (x : Context) (h : s.ctx c = some x) (hf : s.frost.phase ≠ .frozen) :
    (s.writeCsb c).mem = s.mem.store x.csb.toNat (csbBytes x s.time.now) [] := by
  rw [State.writeCsb, if_neg hf, State.putCsb_mem s c x h]

theorem State.writeCsb_keep {β : Type} (g : State → β) (hg : LeftByStores g) (s : State) (c : Nat) : g (s.writeCsb c) = g s := by
  unfold State.writeCsb
  split
  · rfl
  · exact State.putCsb_keep g hg s c

@[simp] theorem csbBytes_length (x : Context) (w : W64) : (csbBytes x w).length = 24 := by
  simp [csbBytes, bytesOf]

theorem bytesOf_length (n : Nat) : ∀ v, (bytesOf n v).length = n := by
  induction n with
  | zero => intro v; rfl
  | succ n ih => intro v; simp [bytesOf, ih]

@[simp] theorem recordBytes_length (x : Context) (o : Op) (w : W64) (e : Bool) : (recordBytes x o w e).length = 32 := by
  simp [recordBytes, bytesOf_length]

/-- Reading back what a store wrote. -/
theorem Memory.read_store {m : Memory} (h : m.wf = true) (a : Nat) (bs : List Byte) (bad : List Nat) :
    (m.store a bs bad).read a bs.length = bs := by
  apply List.ext_getElem
  · simp [Memory.read, upto]
  · intro i h1 h2
    simp only [Memory.read, upto, List.getElem_map, List.getElem_range, Memory.store_byte, Memory.write_byte bs h]
    have : a ≤ a + i ∧ a + i < a + bs.length := by omega
    simp [this, h2]

/-- A store leaves bytes outside it as they were. -/
theorem Memory.read_store_apart {m : Memory} (h : m.wf = true) (a : Nat) (bs : List Byte) (bad : List Nat) (b n : Nat)
    (hd : b + n ≤ a ∨ a + bs.length ≤ b) : (m.store a bs bad).read b n = m.read b n := by
  apply List.ext_getElem
  · simp [Memory.read]
  · intro i h1 h2
    simp only [Memory.read, List.length_map, upto, List.length_range] at h1
    simp only [Memory.read, upto, List.getElem_map, List.getElem_range, Memory.store_byte, Memory.write_byte bs h]
    have : ¬(a ≤ b + i ∧ b + i < a + bs.length) := by omega
    simp [this]

/-! ### Counting and releasing leave the rings and memory -/

theorem State.perfAdd_keep {β : Type} (g : State → β) (hg : ∀ (s : State) p, g { s with perf := p } = g s)
    (s : State) (w : Who) (k n : Nat) : g (s.perfAdd w k n) = g s := hg s _

theorem State.freeEnded_keep {β : Type} (g : State → β) (hg : ∀ (s : State) k, g { s with cores := k } = g s)
    (s : State) (c : Nat) : g (s.freeEnded c) = g s := by
  unfold State.freeEnded
  refine State.foldl_field g _ ?_ _ s
  intro t k
  split
  · split
    · exact hg _ _
    · rfl
  · rfl

theorem State.endReleased_keep {β : Type} (g : State → β) (hg : ∀ (s : State) k, g { s with cores := k } = g s)
    (hs : ∀ (s : State) c (f : Context → List Space), g (s.modCtx c (fun x => { x with spaces := f x })) = g s)
    (s : State) (c : Nat) : g (s.endReleased c) = g s := by
  unfold State.endReleased
  rw [State.freeEnded_keep g hg]
  exact State.foldl_field g _ (fun s p => hs s c _) _ s

/-! ### Contexts under updates -/

theorem State.ctx_modCtx (s : State) (c : Nat) (f : Context → Context) : (s.modCtx c f).ctx c = (s.ctx c).map f := by
  unfold State.ctx State.modCtx unitAt
  simp only [List.getElem?_modify]
  cases s.ctxs[c]? with
  | none => rfl
  | some o => simp

theorem State.ctx_of_ctxs {s t : State} (h : t.ctxs = s.ctxs) (c : Nat) : t.ctx c = s.ctx c := by
  unfold State.ctx; rw [h]

theorem State.ringsAt_spaces (s : State) (k c : Nat) (f : Context → List Space) :
    (s.modCtx k (fun x => { x with spaces := f x })).ringsAt c = s.ringsAt c := by
  unfold State.ringsAt State.ctx State.modCtx unitAt
  simp only [List.getElem?_modify]
  by_cases h : k = c
  · subst h
    cases s.ctxs[k]? with
    | none => rfl
    | some o => cases o <;> simp
  · simp [h]

/-! ### Completion -/

/-- A completion that no Frost keeps writes one record at CQ_TAIL and advances it, takes the command from the open ones, and leaves
SQ_HEAD. -/
theorem State.finishNow_spec (s : State) (o : Op) (x : Context) (h : s.ctx o.ctx = some x) (hw : s.mem.wf = true) (ha : x.apart)
    (hf : s.frost.phase ≠ .frozen) :
    (s.finishNow o none).mem.read (cqAddr x x.cqTail) 32 = recordBytes x o s.time.now false ∧
    (s.finishNow o none).ringsAt o.ctx = some (x.sqHead, x.cqTail + 1) ∧
    (s.finishNow o none).ops = s.ops.filter (fun q => !q.is o.ctx o.idx) ∧
    (s.finishNow o none).time = s.time ∧ (s.finishNow o none).posted = s.posted ∧ (s.finishNow o none).frost = s.frost := by
  have hk : s.keeps o = false := by simp [State.keeps, hf]
  have key : ∀ {β : Type} (g : State → β), (∀ (s : State) k, g { s with cores := k } = g s) →
      (∀ (s : State) c (f : Context → List Space), g (s.modCtx c (fun x => { x with spaces := f x })) = g s) →
      (∀ (s : State) p, g { s with perf := p } = g s) → (∀ (s : State) q, g { s with out := q } = g s) →
      (∀ (s : State) k, g { s with clusters := k } = g s) →
      g (s.finishNow o none) = g ((s.dropOp o.ctx o.idx).writeRecord o none) := by
    intro β g h1 h2 h3 h4 h5
    unfold State.finishNow State.endNow
    simp only [hk, Bool.false_eq_true, if_false]
    rw [State.endReleased_keep g h1 h2]
    rw [show ∀ (s : State) i f, g (s.modCluster i f) = g s from fun s _ _ => h5 s _, State.countCommand, State.perfAdd_keep g h3]
    split
    · exact h4 _ _
    · rfl
  have hc : (s.dropOp o.ctx o.idx).ctx o.ctx = some x := h
  have hr : (s.dropOp o.ctx o.idx).writeRecord o none
      = (((s.dropOp o.ctx o.idx).storeHome (.cluster o.cluster) (cqAddr x x.cqTail) (recordBytes x o s.time.now false) []).modCtx o.ctx
          (fun x => { x with cqTail := x.cqTail + 1 })).writeCsb o.ctx := by
    unfold State.writeRecord
    rw [hc]
    rfl
  have hx : (((s.dropOp o.ctx o.idx).storeHome (.cluster o.cluster) (cqAddr x x.cqTail) (recordBytes x o s.time.now false) []).modCtx
          o.ctx (fun x => { x with cqTail := x.cqTail + 1 })).ctx o.ctx = some { x with cqTail := x.cqTail + 1 } := by
    rw [State.ctx_modCtx, State.ctx_of_ctxs (State.storeHome_keep State.ctxs (fun _ _ _ _ _ _ _ => rfl) _ _ _ _ _), hc]
    rfl
  have keep : ∀ {β : Type} (g : State → β), LeftByStores g → (∀ (s : State) c f, g (s.modCtx c f) = g s) →
      g ((s.dropOp o.ctx o.idx).writeRecord o none) = g (s.dropOp o.ctx o.idx) := by
    intro β g h1 h2
    rw [hr, State.writeCsb_keep g h1, h2, State.storeHome_keep g h1]
  refine ⟨?_, ?_, ?_, ?_, ?_, ?_⟩
  · rw [key State.mem (fun _ _ => rfl) (fun _ _ _ => rfl) (fun _ _ => rfl) (fun _ _ => rfl) (fun _ _ => rfl), hr,
      State.writeCsb_mem _ _ _ hx (by
        rw [State.modCtx_frost, State.storeHome_keep State.frost (fun _ _ _ _ _ _ _ => rfl)]; exact hf)]
    simp only [State.modCtx_mem, State.storeHome_mem, State.dropOp_mem]
    rw [Memory.read_store_apart (Memory.store_wf _ _ _ hw)]
    · have := Memory.read_store hw (cqAddr x x.cqTail) (recordBytes x o s.time.now false) []
      rwa [recordBytes_length] at this
    · rw [csbBytes_length]
      have := ha
      unfold Context.apart at this
      rcases this with h | h
      · exact Or.inr h
      · exact Or.inl h
  · rw [key (fun s => s.ringsAt o.ctx) (fun _ _ => rfl) (fun s k f => State.ringsAt_spaces s k o.ctx f) (fun _ _ => rfl)
      (fun _ _ => rfl) (fun _ _ => rfl), hr, State.writeCsb_keep (fun s => s.ringsAt o.ctx) (fun _ _ _ _ _ _ _ => rfl)]
    unfold State.ringsAt
    rw [hx]
    rfl
  · rw [key State.ops (fun _ _ => rfl) (fun _ _ _ => rfl) (fun _ _ => rfl) (fun _ _ => rfl) (fun _ _ => rfl),
      keep State.ops (fun _ _ _ _ _ _ _ => rfl) (fun _ _ _ => rfl)]
    rfl
  · rw [key State.time (fun _ _ => rfl) (fun _ _ _ => rfl) (fun _ _ => rfl) (fun _ _ => rfl) (fun _ _ => rfl),
      keep State.time (fun _ _ _ _ _ _ _ => rfl) (fun _ _ _ => rfl)]
    rfl
  · rw [key State.posted (fun _ _ => rfl) (fun _ _ _ => rfl) (fun _ _ => rfl) (fun _ _ => rfl) (fun _ _ => rfl),
      keep State.posted (fun _ _ _ _ _ _ _ => rfl) (fun _ _ _ => rfl)]
    rfl
  · rw [key State.frost (fun _ _ => rfl) (fun _ _ _ => rfl) (fun _ _ => rfl) (fun _ _ => rfl) (fun _ _ => rfl),
      keep State.frost (fun _ _ _ _ _ _ _ => rfl) (fun _ _ _ => rfl)]
    rfl

/-- The advance of SQ_HEAD past `n` places leaves everything but the rings, the wait and the status block. -/
theorem State.advance_spec (s : State) (c n : Nat) (x : Context) (h : s.ctx c = some x) (hf : s.frost.phase ≠ .frozen) :
    (s.advance c n).ctx c = some { x with sqHead := x.sqHead + BitVec.ofNat 32 n, issueWait := none } ∧
    (s.advance c n).mem = s.mem.store x.csb.toNat (csbBytes { x with sqHead := x.sqHead + BitVec.ofNat 32 n, issueWait := none } s.time.now) [] := by
  have hx : (s.modCtx c (fun x => { x with sqHead := x.sqHead + BitVec.ofNat 32 n, issueWait := none })).ctx c
      = some { x with sqHead := x.sqHead + BitVec.ofNat 32 n, issueWait := none } := by rw [State.ctx_modCtx, h]; rfl
  unfold State.advance
  refine ⟨?_, ?_⟩
  · rw [State.ctx_of_ctxs (State.writeCsb_keep State.ctxs (fun _ _ _ _ _ _ _ => rfl) _ _), hx]
  · rw [State.writeCsb_mem _ _ _ hx hf]
    rfl

/-! ### Settling -/

/-- With no command of a stream waiting and no REMOTE_FENCE acting, settling changes nothing. -/
theorem State.settle_id (s : State) (c : Nat)
    (h : ∀ o ∈ s.ops, o.ctx = c → o.phase ≠ .waitEarlier ∧ ¬(dOpcode o.desc = 0x06 ∧ o.phase = .acting)) : s.settle c = s := by
  have posts : ∀ k, s.settlePosts c k = s := by
    intro k
    cases k with
    | zero => rfl
    | succ k =>
      unfold State.settlePosts
      split
      · rename_i o ho
        have hp := List.find?_some ho
        simp only [Bool.and_eq_true, beq_iff_eq] at hp
        exact absurd hp.1.2 (h o (List.mem_of_find?_eq_some ho) hp.1.1.1).1
      · rfl
  unfold State.settle
  rw [posts]
  split
  · unfold State.settleN
    split
    · rename_i o ho
      have hp := List.find?_some ho
      simp only [beq_iff_eq] at hp
      obtain ⟨h1, h2⟩ := h o (List.mem_of_find?_eq_some ho) hp
      split
      · rfl
      · rw [if_neg (fun hh => h2 ⟨hh.1, hh.2.1⟩)]
    · rfl
  · rfl

/-! ### Issue -/

/-- The state in which a command that passes its checks starts. -/
def State.issued (s : State) (o : Op) (places : Nat) : State :=
  ((s.modCluster o.cluster (fun k => { k with progT := s.nowN })).taken o places).addOp o

/-- An entry that is taken and passes its checks starts, and its stream settles. -/
theorem State.issue_go {s : State} {c opc : Nat} {x : Context} {d : Block} {o : Op} {check : State → Context → Op → Verdict}
    {start : State → Op → State} (h : s.takes c opc x d) (hc : check s x (s.newOp c x d) = .go o) :
    s.issue c opc check start = (start (s.issued o 1) o).settle o.ctx := by
  obtain ⟨h1, h2, h3, h4, h5⟩ := h
  unfold State.issue
  rw [h1]
  simp only [h2, h3, List.isEmpty_nil, Bool.not_true, ne_eq, not_true_eq_false, Bool.false_eq_true, or_self, if_false,
    Nat.not_lt.mpr h4, h5, hc]
  rfl

/-- An entry that is taken and fails a check completes at once. -/
theorem State.issue_fail {s : State} {c opc : Nat} {x : Context} {d : Block} {st : Byte} {off : Nat}
    {check : State → Context → Op → Verdict} {start : State → Op → State} (h : s.takes c opc x d)
    (hc : check s x (s.newOp c x d) = .fail st off) :
    s.issue c opc check start =
      ((s.taken (s.newOp c x d) 1).finishNow { s.newOp c x d with status := st, d0 := BitVec.ofNat 32 off } none).settle c := by
  obtain ⟨h1, h2, h3, h4, h5⟩ := h
  unfold State.issue
  rw [h1]
  simp only [h2, h3, List.isEmpty_nil, Bool.not_true, ne_eq, not_true_eq_false, Bool.false_eq_true, or_self, if_false,
    Nat.not_lt.mpr h4, h5, hc]
  rfl

/-- What an open issue says of the context. -/
theorem State.nextEntry_spec {s : State} {c : Nat} {x : Context} {d : Block} (h : s.nextEntry c = some (x, d)) :
    s.ctx c = some x ∧ s.issueOpen c x = true ∧ x.sqHead ≠ x.sqTail ∧ d = s.entryAt x x.sqHead := by
  unfold State.nextEntry at h
  split at h
  · cases h
  · rename_i y hy
    split at h
    · rename_i hh
      simp only [Option.some.injEq, Prod.mk.injEq] at h
      obtain ⟨rfl, rfl⟩ := h
      simp only [Bool.and_eq_true, bne_iff_ne, ne_eq] at hh
      exact ⟨hy, hh.1, hh.2, rfl⟩
    · cases h

/-- An open issue has a cluster whose CSP runs, and the command is bound to it. -/
theorem State.newOp_up {s : State} {c : Nat} {x : Context} {d : Block} (h : s.issueOpen c x = true) :
    (s.proc (3 + (s.newOp c x d).cluster)).runs = true := by
  unfold State.issueOpen at h
  simp only [Bool.and_eq_true, List.any_eq_true] at h
  obtain ⟨_, n, hn, hu⟩ := h
  have hs : ∃ k, (clustersOf x).find? s.clusterUp = some k := by
    cases hf : (clustersOf x).find? s.clusterUp with
    | some k => exact ⟨k, rfl⟩
    | none =>
      rw [List.find?_eq_none] at hf
      exact absurd hu (hf n hn)
  obtain ⟨k, hk⟩ := hs
  have hku := List.find?_some hk
  show (s.proc (3 + ((clustersOf x).find? s.clusterUp).getD (lowCluster x))).runs = true
  rw [hk]
  unfold State.clusterUp at hku
  simp only [Bool.and_eq_true] at hku
  exact hku.1.1.1

/-- While an issue is open, no command of the stream that holds later ones is open. -/
theorem State.issueOpen_free {s : State} {c : Nat} {x : Context} (h : s.issueOpen c x = true) :
    ∀ o ∈ s.ops, o.ctx = c → dOpcode o.desc ≠ 0x06 := by
  unfold State.issueOpen at h
  simp only [Bool.and_eq_true, Bool.not_eq_true', List.any_eq_false, beq_iff_eq] at h
  intro o ho hc h6
  have := h.1.1.2 o (by simp [State.openOps, ho, hc])
  simp [holdsLater, h6] at this

end Sys2Proof.Machine
end

