-- ==== Sys2Proof/WellFormed.lean ====
section
/-! DEFINITION. Which commands are well formed: an operand of a flit, a message, a register access or an event has the size and
the range the manual gives it. `exec` answers for every term; a term that is not well formed stands for nothing that can arrive. -/

namespace Sys2Proof

/-- No two equal elements. -/
def distinct {α : Type} [DecidableEq α] : List α → Bool
  | [] => true
  | x :: t => !t.contains x && distinct t

/-- Register accesses are of 1, 2, 4 or 8 bytes (R557). -/
def accessSize (n : Nat) : Bool := [1, 2, 4, 8].contains n

/-- A BAR2 access lies within the largest window, 512 GiB (R468), and has at least one byte. -/
def bar2Fits (off n : Nat) : Bool := decide (0 < n ∧ off + n ≤ 2 ^ 39)

/-- BAR2 sizes are 1 GiB to 512 GiB, in powers of two (R468). -/
def barSizeOk (b : Option (Bool × Fin 10)) : Bool := match b with
  | some e => decide (e.2.val ≤ 9)
  | none => true

/-- A message of an operation, its virtual channel and its LENGTH range (the *Message operations* table), with HOPS 1 to 8. -/
def msgOk (op vc lo hi : Nat) (m : Msg) : Bool :=
  decide (m.op = op ∧ m.vc = vc ∧ lo ≤ m.data.length ∧ m.data.length ≤ hi ∧ 1 ≤ m.hops ∧ m.hops ≤ 8)

/-- The low byte of OPWORD is a GROUP or ATTEST message type (R389, R531). -/
def typeOk (t : Nat) (m : Msg) : Bool := decide (m.opword.toNat % 256 = t)

/-- A control flit body: eight credits, at most four events of 48 bytes led by their code (the *Control flit body* table). -/
def controlOk (c : Control) : Bool :=
  decide (c.vcCredit.length = 8 ∧ c.events.length ≤ 4)
  && c.events.all (fun e => decide (e.bytes.length = 48) && e.bytes.head?.map BitVec.toNat == some e.code)

/-- A fatal second fault carries a cause of trace point 0x7011 (R606). -/
def siteOk : FaultSite → Bool
  | .machinery => true
  | .unit _ => true
  | .fatal c => decide (1 ≤ c ∧ c ≤ 7)

/-- Bits of a voted field (the *Voted fields* table). -/
def votedBits : VotedField → Nat
  | .resetCluster => 8
  | .mode => 2
  | .clusterMs => 16
  | .coreMs => 16
  | .prunerMs => 16
  | .runnerMs => 8
  | .resetWarm => 1
  | .resetCold => 1
  | .debugLock => 1
  | .flashLock => 1
  | .linkEnable _ => 1
  | .linkAllowX2 _ => 1
  | .swap => 1
  | .pinEn => 1

/-- An upset flips bits of the field only. -/
def upsetOk (f : VotedField) (a b c : W16) : Bool :=
  decide (a.toNat < 2 ^ votedBits f ∧ b.toNat < 2 ^ votedBits f ∧ c.toNat < 2 ^ votedBits f)

/-- The places of an uncorrectable error (R234, R247, R255, R256): an HBM address, on-die memory, a byte of a stationary-operand buffer with
its block-scale store (R102). -/
def poisonAt : PoisonSite → Bool
  | .memory addr =>
    let a := addr.toNat
    decide (a < 0x78_0000_0000) || decide (0x100_0000_0000 ≤ a ∧ a < 0x100_0800_0000)
      || decide (0x200_0000_0000 ≤ a ∧ a < 0x200_2000_0000 ∧ a % 0x40_0000 < 0x28_0000)
  | .cache _ addr => decide (addr.toNat < 0x78_0000_0000)
  | .stationary _ _ byte => decide (byte < 0x4400)
  | .tag _ _ => true

/-- Whether a command is well formed. -/
def wellFormed (i : Instr) : Bool :=
  match i with
  | .nop _ => true
  | .fence _ => true
  | .flushRange _ => true
  | .invalRange _ => true
  | .signal _ => true
  | .wait _ => true
  | .remoteFence _ => true
  | .frost _ => true
  | .matmul _ _ => true
  | .matmulDd _ _ => true
  | .accLoad _ _ => true
  | .accStore _ _ => true
  | .accRelease _ => true
  | .vec _ _ => true
  | .dma _ _ => true
  | .slice _ _ => true
  | .trugSlotSet _ => true
  | .trugPost _ => true
  | .allReduce _ => true
  | .reduceScatter _ => true
  | .allGather _ => true
  | .broadcast _ => true
  | .pruneUpdate _ => true
  | .sweep _ => true
  | .rake _ _ => true
  | .issueResume _ => true
  | .freeCoreGrant _ => true
  | .arrayOpDone _ _ _ => true
  | .epilogueDone _ _ => true
  | .vectorDone _ _ => true
  | .dmaDone _ _ => true
  | .hostReadCompletion _ _ data _ => decide (0 < data.length)
  | .prunerShareDone _ => true
  | .normExchangeDone _ _ parts => distinct (parts.map (fun p => p.chip))
  | .rakeDone _ _ => true
  | .digestDone _ _ => true
  | .trugDeadline _ _ => true
  | .trugPassDone _ => true
  | .sqTail _ _ => true
  | .cqHead _ _ => true
  | .streamGrant _ _ _ => true
  | .bar2Read off len => bar2Fits off len
  | .bar2Write off data _ => bar2Fits off data.length
  | .functionLevelReset => true
  | .perstAssert => true
  | .perstDeassert => true
  | .pcieLinkDown => true
  | .pcieLinkUp rate width => decide (1 ≤ rate.val ∧ rate.val ≤ 6) && [1, 2, 4, 8, 16].contains width.val
  | .getStatus _ => true
  | .logRead _ _ => true
  | .recoverWrite _ _ data => decide (data.length ≤ 4064)
  | .hello _ _ _ => true
  | .bar2Priv _ _ => true
  | .ctxCreate _ _ => true
  | .ctxDestroy _ _ => true
  | .ctxAbort _ _ => true
  | .regionSet _ _ _ _ _ => true
  | .regionApply _ => true
  | .regionSetTimeout _ => true
  | .jobLoad _ _ _ => true
  | .graftStage _ _ _ => true
  | .graftWriteDone => true
  | .graftActivate _ => true
  | .graftStatus _ => true
  | .dumpRead _ _ _ _ => true
  | .attest _ _ _ _ _ => true
  | .topResetCold _ _ => true
  | .topResetWarm _ _ => true
  | .topResetCluster _ _ _ => true
  | .cfgSwapRequest _ => true
  | .cfgSwapWithdraw _ => true
  | .cfgSwapPerform => true
  | .pwrModeWrite _ _ => true
  | .dozeRequest _ => true
  | .restRequest _ => true
  | .activeRequest _ => true
  | .tripRestart _ => true
  | .linkEnable _ _ => true
  | .linkDisable _ _ => true
  | .linkRetrainRequest _ _ => true
  | .frostStart _ => true
  | .frostThaw _ => true
  | .unpark _ => true
  | .wideSnap _ _ => true
  | .wideDone _ _ => true
  | .perfFilterWrite _ _ _ => true
  | .pcieBar2BaseWrite _ _ => true
  | .registerWrite _ _ size _ => accessSize size
  | .smbusWrite _ _ _ => true
  | .smbusRead _ _ => true
  | .smbusAlertResponse => true
  | .extest => true
  | .extestPulse => true
  | .extestTrain => true
  | .idcode => true
  | .testLogicReset => true
  | .pwrGoodRise _ => true
  | .pwrGoodFall _ => true
  | .powerUpStep => true
  | .regulatorAck _ => true
  | .regulatorRetry _ => true
  | .pmbAlert => true
  | .stage1Reached => true
  | .stage2Reached trainFailures selftestFails => distinct (trainFailures.map (fun e => e.1)) && distinct selftestFails
  | .stage3Alone => true
  | .coreSelftestFail _ => true
  | .timerefLost => true
  | .timerefReturn => true
  | .hbmrefLost => true
  | .runrefLost _ => true
  | .runrefReturn _ => true
  | .thermalSample readings hbmTemps => !readings.isEmpty && distinct (readings.map (fun e => e.1)) && distinct (hbmTemps.map (fun e => e.1))
  | .thermalLimitLower => true
  | .thermalLimitRaise => true
  | .thermalTrip => true
  | .shedStageEnter _ => true
  | .undervoltageWarning _ _ => true
  | .shedStageClear _ => true
  | .undervoltageFatal _ => true
  | .wake _ => true
  | .dozeEntryStep => true
  | .drainAbandon => true
  | .dozeExitStep => true
  | .restEntryStep => true
  | .shutdownComplete _ => true
  | .coreHang _ => true
  | .clusterHang _ => true
  | .runnerHang _ => true
  | .prunerHang _ => true
  | .processorSilent _ _ => true
  | .burstGap _ _ => true
  | .sundialSelfCheck _ => true
  | .coreReset _ => true
  | .clusterReset _ => true
  | .portReset _ => true
  | .prunerReset _ => true
  | .deviceWarmReset fatalCause => [1, 2, 3, 6].contains fatalCause
  | .deviceColdReset fatalCause => [5, 7].contains fatalCause
  | .resetComplete _ selftestFails => distinct selftestFails
  | .resetWindowExpiry _ => true
  | .secondFault site => siteOk site
  | .suspectReplayEnd _ _ => true
  | .processorCrash _ _ _ => true
  | .processorRestart _ _ => true
  | .frostIn => true
  | .frostCutSettled => true
  | .frostThawDone => true
  | .syncInterval => true
  | .holdoverEntry => true
  | .syncParentReturn => true
  | .receiveFlit _ flit => flit.isEmpty || decide (flit.length = 256)
  | .controlFlit _ ctl => controlOk ctl
  | .replayTimeout _ => true
  | .ackTimer _ => true
  | .retrainDone _ _ => true
  | .signalDetected _ => true
  | .trainDone _ _ => true
  | .alignDone _ => true
  | .laneFail _ _ => true
  | .lossOfSignal _ => true
  | .resetNotice _ => true
  | .linkDownRestart _ => true
  | .wakeFrame _ => true
  | .forwardHoldTimeout _ => true
  | .write _ m => msgOk 1 2 1 16384 m
  | .writeAck _ m => msgOk 2 3 0 0 m
  | .readReq _ m => msgOk 3 0 0 0 m
  | .readResp _ m => msgOk 4 1 1 16384 m
  | .remoteSignal _ m => msgOk 5 2 9 9 m
  | .signalAck _ m => msgOk 6 3 6 8 m
  | .grantReq _ m => msgOk 7 0 9 9 m
  | .grantResp _ m => msgOk 8 3 0 6 m
  | .grantRelease _ m => msgOk 9 3 0 0 m
  | .routeErr _ m => msgOk 10 3 0 0 m
  | .grantTimeout _ _ => true
  | .coll _ m => msgOk 16 4 1 16384 m
  | .collCheck _ m => msgOk 17 5 1 16384 m
  | .collectiveTimeout _ _ => true
  | .join _ m => msgOk 0x18 6 1 16384 m && typeOk 1 m
  | .joinRetry => true
  | .admitMsg _ m => msgOk 0x18 6 1 16384 m && typeOk 2 m
  | .refuse _ m => msgOk 0x18 6 1 16384 m && typeOk 3 m
  | .formed _ m => msgOk 0x18 6 1 16384 m && typeOk 4 m
  | .job _ m => msgOk 0x18 6 1 16384 m && typeOk 5 m
  | .plan _ m => msgOk 0x18 6 1 16384 m && typeOk 6 m
  | .planCopyResume => true
  | .planRecordRead _ => true
  | .heartbeat _ m => msgOk 0x18 6 1 16384 m && typeOk 8 m
  | .heartbeatInterval => true
  | .mgrBeat _ m => msgOk 0x18 6 1 16384 m && typeOk 9 m
  | .report _ m => msgOk 0x18 6 1 16384 m && typeOk 10 m
  | .withdraw _ m => msgOk 0x18 6 1 16384 m && typeOk 11 m
  | .discard _ m => msgOk 0x18 6 1 16384 m && typeOk 12 m
  | .thaw _ m => msgOk 0x18 6 1 16384 m && typeOk 13 m
  | .commit _ m => msgOk 0x18 6 1 16384 m && typeOk 14 m
  | .takeover _ m => msgOk 0x18 6 1 16384 m && typeOk 15 m
  | .memberLost _ => true
  | .deputyTakeover => true
  | .managerLost => true
  | .readyTimeout _ => true
  | .challenge _ m => msgOk 0x1A 7 1 16384 m && typeOk 1 m
  | .response _ m => msgOk 0x1A 7 1 16384 m && typeOk 2 m
  | .verdict _ m => msgOk 0x1A 7 1 16384 m && typeOk 3 m
  | .verdictRepeat _ => true
  | .graftVerifyDone => true
  | .graftHandover => true
  | .graftReadyTimeout => true
  | .graftTrialEnd => true
  | .graftDeferEnd => true
  | .patrolScrub _ err _ => distinct (err.map (fun e => e.1)) && err.all (fun e => e.2 != 0)
  | .ecsReadout _ _ _ => true
  | .sectorPoisoned addr => poisonAt addr
  | .waitPoll _ _ => true
  | .waitTimeout _ _ => true
  | .voteScrub => true
  | .voteUpset f flip0 flip1 flip2 => upsetOk f flip0 flip1 flip2
  | .configurationRequest bar2 => barSizeOk bar2
  | .mbxGo _ => true
  | .unknownOpcode _ => true
  | .poisonedSubmissionEntry _ => true
  | .registerRead _ _ size => accessSize size
  | .rangeOperationDone _ _ => true
  | .accTransferDone _ _ => true
  | .graftHandoverResume => true
  | .reqStall => true

end Sys2Proof
end

