-- ==== Sys2Proof/Tests/Slice0.lean ====
section
/-! SUPPORT. Tests: what one command does to a small state, written from the manual's rules. For every statement with hypotheses a
theorem here shows a state and operands that meet them all, clause by clause, at the boundary values of the ranges where there are
some. Most states are `run` with one thing changed. -/

namespace Sys2Proof.Tests

open Sys2Proof Sys2Proof.Machine

set_option Elab.async false

/-! ### Helpers -/

/-- What a command leads to. -/
def after (i : Instr) (s : State) : State := match exec i s with
  | .next t => t
  | _ => s

/-- The operation that a check lets start. -/
def goes (v : Verdict) : Option Op := match v with
  | .go o => some o
  | _ => none

/-- A region entry over the first MiB of HBM. -/
def region (perm : W16) : Region := { base := 0, limit := 0xF_FFFF, perm := perm }

/-- Context 0: rings of 64 and 256 entries, one entry to read, one region of 1 MiB with every permission, cluster 0. -/
def ctxA : Context :=
  { owner := .host 1, clusters := 1, slotBase := 0, slotCount := 8, sqBase := 0x1000, sqLog2 := 6, cqBase := 0x4000, cqLog2 := 8
    csb := 0x8000, jobId := 7, cperm := 0xF, sqHead := 0, sqTail := 1, cqHead := 0, cqTail := 0, status := .active, dbErrs := 0
    regions := region 0x7F :: List.replicate 63 (region 0), streams := List.replicate 8 { grant := 0, prev := 0, consumed := 0 }
    spaces := [], issueWait := none, pending := none, grants := [], dmas := [], latchedSq := none, latchedCq := none, planRecs := [] }

/-- A device alone at Stage 3, ten seconds after power-up, with context 0. -/
def run : State :=
  { State.reset with
    time := { State.reset.time with now := 10000000000 }
    start := { State.reset.start with good := true, seqPos := 8, stage := 3, trainedOnce := true }
    pwr := { State.reset.pwr with railsOn := [.sram, .core, .hbmVpp, .hbmVdd, .hbmVddq, .runA, .runH, .pcieA, .pcieH], coreMv := 620 }
    fw := { State.reset.fw with procs := List.replicate 11 { runs := true, slot := 0, beatT := 0, lastRun := none } }
    mbx := { State.reset.mbx with opened := true, session := 1 }
    pcie := { State.reset.pcie with l0 := true, perst := false, bar2On := true }
    cores := List.replicate 128 { Core.reset with inService := true }
    hbms := List.replicate 8 { Hbm.reset with trained := true }
    ctxs := some ctxA :: List.replicate 63 none }

/-- A submission entry of DESC_VER 1: its opcode, then values of some bytes at some offsets. -/
def entry (opc : Nat) (fields : List (Nat × Nat × Nat)) : List Byte :=
  fields.foldl (fun b f => patch b f.1 (bytesOf f.2.1 f.2.2)) (patch (List.replicate 64 0) 0 (bytesOf 2 (opc + 256)))

/-- `s` with an entry at the head of the ring of context 0. -/
def hd (s : State) (e : List Byte) : State := { s with mem := s.mem.write 0x1000 e }

/-- `s` with bytes at an address. -/
def put (s : State) (a : Nat) (l : List Byte) : State := { s with mem := s.mem.write a l }

/-- An operation of context 0. -/
def opA (idx : W32) (d : List Byte) : Op := { run.newOp 0 ctxA (blockOf d) with idx := idx }

/-- `s` with an operation of context 0 open. -/
def withOp (s : State) (o : Op) : State := { s with ops := s.ops ++ [o] }

/-- Entry `e` stands at the head of context 0 (as `x`) of `hd s e` and is taken as opcode `opc`. -/
def ready (s : State) (opc : Nat) (x : Context) (e : List Byte) : Bool :=
  let u := hd s e
  u.mem.wf && u.ops.all (fun o => decide (o.ctx = 0 → o.phase ≠ .waitEarlier)) &&
  decide (x.csb.toNat + 24 ≤ cqAddr x x.cqTail ∨ cqAddr x x.cqTail + 32 ≤ x.csb.toNat) &&
  decide (u.nextEntry 0 = some (x, blockOf e) ∧ dOpcode (blockOf e) = opc ∧ u.entryBad x x.sqHead = [] ∧
    (u.newOp 0 x (blockOf e)).slots ≤ u.cqFree 0 x ∧ dVer (blockOf e) = 1)

theorem ready_meets (s : State) (opc : Nat) (x : Context) (e : List Byte) (h : ready s opc x e = true) :
    (hd s e).mem.wf = true ∧ (hd s e).noneWaits 0 ∧ x.apart ∧ (hd s e).takes 0 opc x (blockOf e) := by
  simp only [ready, Bool.and_eq_true, decide_eq_true_eq, List.all_eq_true] at h
  obtain ⟨⟨⟨h1, h2⟩, h3⟩, h4⟩ := h
  exact ⟨h1, h2, h3, h4⟩

/-! ### The block: no table word, well-formed commands -/

theorem test_no_table_word : decodeTableWord 32 0 = none ∧ run.withFetchWord 32 0 = run := by decide +kernel

theorem test_step_takes_the_front : Machine.step { run with pending := [.timerefLost, .reqStall] }
    = .next { run with pending := [.reqStall], time := { run.time with refLost := true, lostFlag := true } } := rfl

/-- What a step leads to. -/
def stepped (s : State) : Option State := match Machine.step s with
  | .next t => some t
  | _ => none

theorem test_idle : (run.pending = [] ∧ run.start.good = true ∧ run.time.slew = 0 ∧ run.time.rate = 0 ∧ run.time.rateT = 0 ∧
      run.time.now.toNat + 1 < 2 ^ 64) ∧
    (stepped run).map (fun t => t.time.now) = some 10000000001 ∧ stepped State.reset = some State.reset := by decide +kernel

theorem test_time_end : stepped { run with time := { run.time with now := 0xFFFF_FFFF_FFFF_FFFF } } = none := by decide +kernel

theorem test_canonical : run.mem.wf = true ∧ (hd run (entry 0 [])).mem.wf = true ∧ State.reset.mem.wf = true := by decide +kernel

def msgA : Msg :=
  { vc := 2, op := 1, dst := 0, src := 5, job := 7, addr := 0x10000, hops := 1, tag := 3, opword := 0, poison := 0, data := [1] }

theorem test_ill_formed : [Instr.hostReadCompletion 0 0 [] false,
    .normExchangeDone 0 0 [{ chip := 1, w := 0, u := 0, poisoned := false, nonfinite := false },
      { chip := 1, w := 1, u := 0, poisoned := false, nonfinite := false }],
    .bar2Read (2 ^ 39) 1, .bar2Read 0 0, .bar2Write (2 ^ 39 - 1) [0, 0] false, .pcieLinkUp 0 16, .pcieLinkUp 7 16, .pcieLinkUp 6 3,
    .recoverWrite 0 0 (List.replicate 4065 0), .registerWrite .bar4 0 3 0, .registerRead .bar4 0 16, .stage2Reached [(0, 1), (0, 2)] [],
    .stage2Reached [] [5, 5], .thermalSample [] [], .thermalSample [(0, 50), (0, 51)] [], .deviceWarmReset 5, .deviceColdReset 1,
    .resetComplete .warm [1, 1], .secondFault (.fatal 0), .secondFault (.fatal 8), .receiveFlit 0 [0],
    .controlFlit 0 { nak := false, ackSeq := 0, shared := 0, vcCredit := [], events := [] },
    .controlFlit 0 { nak := false, ackSeq := 0, shared := 0, vcCredit := List.replicate 8 0, events := [{ code := 1, bytes := [1] }] },
    .write 0 { msgA with op := 2 }, .write 0 { msgA with vc := 3 }, .write 0 { msgA with data := [] }, .write 0 { msgA with hops := 9 },
    .writeAck 0 msgA, .commit 0 { msgA with op := 0x18, vc := 6, opword := 13 }, .verdict 0 { msgA with op := 0x1A, vc := 7, opword := 1 },
    .patrolScrub 0 [(0, 1), (0, 2)] 0, .patrolScrub 0 [(0, 0)] 0, .sectorPoisoned (.memory 0x78_0000_0000),
    .sectorPoisoned (.cache 0 0x78_0000_0000), .sectorPoisoned (.stationary 0 0 0x4400), .sectorPoisoned (.cache 7 0x78_0000_0000),
    .voteUpset .mode 4 0 0,
    .voteUpset .resetWarm 0 2 0, .configurationRequest (some (true, ⟨9, by decide⟩)) ].map wellFormed
      = List.replicate 38 false ++ [true] := by decide +kernel

theorem test_well_formed : [Instr.nop 0, .write 0 msgA, .commit 0 { msgA with op := 0x18, vc := 6, opword := 14 }, .pcieLinkUp 6 16,
    .registerRead .bar4 0 4, .thermalSample [(0, 50)] [], .deviceWarmReset 1, .deviceColdReset 5, .sectorPoisoned (.memory 0x77_FFFF_FFFF),
    .sectorPoisoned (.cache 7 0x77_FFFF_FFFF), .sectorPoisoned (.stationary 127 0 0x43FF), .sectorPoisoned (.tag 7 false), .receiveFlit 0 []].all wellFormed
    = true := by decide +kernel

/-! ### Command streams -/

theorem test_nop : ready run 0x00 ctxA (entry 0x00 []) = true ∧
    (after (.nop 0) (hd run (entry 0x00 []))).ringsAt 0 = some (1, 1) := by decide +kernel

/-- The record of a NOP with CMD_TAG 0x11223344: STATUS OK, PHASE 1, OPCODE 0, no core (R222, R224). -/
theorem test_nop_record : (after (.nop 0) (hd run (entry 0x00 [(8, 4, 0x11223344)]))).mem.read 0x4000 12
    = [0x44, 0x33, 0x22, 0x11, 0, 0, 0, 0, 0, 1, 0, 0xFF] := by decide +kernel

theorem test_acc_release : ready run 0x14 ctxA (entry 0x14 [(12, 1, 127)]) = true ∧ dSpace (blockOf (entry 0x14 [(12, 1, 127)])) ≤ 127 ∧
    (after (.accRelease 0) (hd run (entry 0x14 [(12, 1, 127)]))).ringsAt 0 = some (1, 1) := by decide +kernel

theorem test_unknown_opcode : knownOpcode 0xFF = false ∧ ready run 0xFF ctxA (entry 0xFF []) = true ∧
    (after (.unknownOpcode 0) (hd run (entry 0xFF []))).mem.read 0x4008 1 = [0x10] := by decide +kernel

def poisonedHead : State := { hd run (entry 0x00 []) with mem := { (hd run (entry 0x00 [])).mem with poison := [0x1000 / 32 + 1] } }

theorem test_poisoned_entry : poisonedHead.mem.wf = true ∧ poisonedHead.ops = [] ∧
    poisonedHead.nextEntry 0 = some (ctxA, blockOf (entry 0x00 [])) ∧ poisonedHead.entryBad ctxA ctxA.sqHead ≠ [] ∧
    1 ≤ poisonedHead.cqFree 0 ctxA ∧ (after (.poisonedSubmissionEntry 0) poisonedHead).mem.read 0x4008 3 = [0x17, 0x09, 0xFF] := by
  decide +kernel

/-- The check of an entry of context 0. -/
def chk (s : State) (f : State → Context → Op → Verdict) (x : Context) (e : List Byte) : Option Op :=
  goes (f (hd s e) x ((hd s e).newOp 0 x (blockOf e)))

/-- A SLICE that runs: an earlier command of the stream. -/
def busy : State := withOp run { opA 63 (entry 0x21 []) with core := some 0 }

def orderings : List (Instr × Nat × List Byte × (State → Context → Op → Verdict)) :=
  [(.fence 0, 0x01, entry 0x01 [], checkWaiting), (.flushRange 0, 0x02, entry 0x02 [(16, 8, 0xF_FFFF), (24, 8, 1)], checkRange),
   (.invalRange 0, 0x03, entry 0x03 [(24, 8, 0x10_0000)], checkRange), (.signal 0, 0x04, entry 0x04 [(16, 8, 0xF_FFF8)], checkSignal),
   (.remoteFence 0, 0x06, entry 0x06 [], checkWaiting)]

theorem test_ordering_waits : busy.ops.length = 1 ∧ orderings.all (fun e => ready busy e.2.1 ctxA e.2.2.1
    && (chk busy e.2.2.2 ctxA e.2.2.1).any (fun o => o.phase == .waitEarlier)
    && (after e.1 (hd busy e.2.2.1)).ringsAt 0 == some (1, 0) && (after e.1 (hd busy e.2.2.1)).ops.length == 2) = true := by decide +kernel

theorem test_ordering_acts : run.ops = [] ∧ run.unacked 0 = false ∧ orderings.all (fun e => ready run e.2.1 ctxA e.2.2.1
    && chk run e.2.2.2 ctxA e.2.2.1 == some { (hd run e.2.2.1).newOp 0 ctxA (blockOf e.2.2.1) with phase := .waitEarlier }) = true ∧
    orderings.map (fun e => (after e.1 (hd run e.2.2.1)).ops.length) = [0, 1, 1, 0, 0] := by decide +kernel

/-- SIGNAL writes its word at the last place of the region (R285). -/
theorem test_signal : let e := entry 0x04 [(16, 8, 0xF_FFF8), (24, 8, 0x0102030405060708)]
    (after (.signal 0) (hd run e)).mem.read 0xF_FFF8 8 = [8, 7, 6, 5, 4, 3, 2, 1] ∧
    (after (.signal 0) (hd run e)).ringsAt 0 = some (1, 1) := by decide +kernel

/-- A WAIT on a word of 0: EQ 0 is met at issue, GE 1 is not (R286). -/
theorem test_wait : let e := entry 0x05 [(16, 8, 0xF_FFF8)]
    let f := entry 0x05 [(16, 8, 0xF_FFF8), (24, 8, 1), (32, 1, 2)]
    ready run 0x05 ctxA e = true ∧ ready run 0x05 ctxA f = true ∧ (chk run checkWait ctxA e).isSome = true ∧ (chk run checkWait ctxA f).isSome = true ∧
    (after (.wait 0) (hd run e)).ringsAt 0 = some (1, 1) ∧ (after (.wait 0) (hd run f)).ringsAt 0 = some (1, 0) := by decide +kernel

/-! ### Commands of the cores -/

def noStalls : Stalls := { feed := 0, drain := 0, stationary := 0, stream := 0 }
def pass1 : PassEnd := { pass := 1, stalls := noStalls }

/-- FP32 ADD of four elements: X at 0, Y at 64, OUT at 128. -/
def eVec : List Byte := entry 0x18 [(16, 1, 1), (17, 1, 7), (18, 1, 7), (19, 1, 7), (24, 4, 64), (32, 4, 128), (36, 4, 4)]
/-- A BF16 MATMUL of 1 by 1 by 4 in tile 0, with MFLAGS `m`. -/
def eMat (m : Nat) : List Byte :=
  entry 0x10 [(16, 6, 0x10000), (22, 6, 0x20000), (28, 6, 0x30000), (40, 2, 1), (42, 2, 1), (44, 3, 4), (47, 1, 5), (48, 1, 5), (49, 1, 7),
    (52, 4, 0x1000000), (56, 2, m)]
def eDd : List Byte :=
  entry 0x11 [(16, 6, 0x10000), (22, 6, 0x20000), (28, 6, 0x30000), (34, 6, 0x50000), (40, 2, 1), (42, 2, 1), (44, 3, 1), (47, 1, 4),
    (48, 1, 4), (49, 1, 9), (52, 4, 0x6000000 + 0o543210), (56, 2, 1), (60, 1, 3)]
def eAcc (opc : Nat) : List Byte := entry opc [(16, 6, 0x10000), (49, 1, 7), (52, 4, 0x1000000)]
/-- A DMA of four FP32 elements between two places of HBM, uncached. -/
def eDma : List Byte := entry 0x20 [(16, 8, 0x10000), (24, 8, 0x20000), (32, 1, 2), (33, 1, 2), (34, 1, 7), (35, 1, 7), (36, 4, 4)]
def eSlice : List Byte :=
  entry 0x21 [(16, 6, 0x10000), (24, 6, 0x20000), (32, 6, 0x30000), (40, 4, 1), (44, 4, 8), (48, 2, 1), (50, 2, 1), (52, 1, 3)]

def coreCommands : List (Instr × Nat × List Byte × (State → Context → Op → Verdict)) :=
  [(.matmul 0 127, 0x10, eMat 3, checkMatmul 127), (.matmulDd 0 0, 0x11, eDd, checkMatmul 0), (.accLoad 0 0, 0x12, eAcc 0x12, checkAcc 0),
   (.accStore 0 0, 0x13, eAcc 0x13, checkAcc 0), (.vec 0 0, 0x18, eVec, checkVec 0), (.slice 0 0, 0x21, eSlice, checkSlice 0),
   (.dma 0 0, 0x20, eDma, checkDma 0)]

theorem test_core_commands : coreCommands.all (fun e => ready run e.2.1 ctxA e.2.2.1
    && (chk run e.2.2.2 ctxA e.2.2.1).any (fun o => o.core == some 0)
    && (after e.1 (hd run e.2.2.1)).ringsAt 0 == some (1, 0) && (after e.1 (hd run e.2.2.1)).ops.length == 1) = true := by decide +kernel

/-- A pick outside the cluster set is not taken: the lowest core of the set that can run serves (R27). -/
theorem test_pick : (chk run (checkVec 15) ctxA eVec).map (fun o => o.core) = some (some 15) ∧
    (chk run (checkVec 16) ctxA eVec).map (fun o => o.core) = some (some 0) := by decide +kernel

theorem test_binding : ctxA.space? (dSpace (blockOf eVec)) = none ∧
    ((after (.vec 0 0) (hd run eVec)).core 0).bound = some (0, 0) := by decide +kernel

theorem test_dma : (chk run (checkDma 0) ctxA eDma).all (fun o => (run.remoteSides o).isEmpty && (dmaSrc o).kind != 4) = true ∧
    run.op? 0 0 = none := by decide +kernel

def matIssued (m : Nat) : State := after (.matmul 0 0) (hd run (eMat m))

theorem test_array : ([1, 3].all (fun m => (((matIssued m).running? 0 0 (fun o =>
      (dOpcode o.desc == 0x10 || dOpcode o.desc == 0x11) && o.phase == .running)).any (fun o => (matIssued m).arrayTurn o && mfEnd o.desc == (m == 3))))) = true ∧
    (after (.arrayOpDone 0 0 noStalls) (matIssued 1)).op? 0 0 = none ∧
    ((after (.arrayOpDone 0 0 noStalls) (matIssued 3)).op? 0 0).map (fun o => o.phase) = some .epilogue := by decide +kernel

/-- Rows of BF16 ones and twos: 1 * 2, four times, is 8 in FP32 (0x4100_0000), in the tile. -/
theorem test_matmul_result :
    let s := put (put run 0x10000 [0x80, 0x3F, 0x80, 0x3F, 0x80, 0x3F, 0x80, 0x3F]) 0x20000 [0, 0x40, 0, 0x40, 0, 0x40, 0, 0x40]
    (after (.arrayOpDone 0 0 noStalls) (after (.matmul 0 0) (hd s (eMat 3)))).mem.read (tileAddr 0 0 0 0) 4 = [0, 0, 0, 0x41] := by
  decide +kernel

theorem test_epilogue : let s := after (.arrayOpDone 0 0 noStalls) (matIssued 3)
    (s.running? 0 0 (fun o => o.phase == .epilogue)).isSome = true ∧ (after (.epilogueDone 0 0) s).op? 0 0 = none := by decide +kernel

/-- 1 + 2 is 3 in FP32 (0x4040_0000). -/
theorem test_vector : let s := after (.vec 0 0) (hd (put (put run (storeAddr 0 0) [0, 0, 0x80, 0x3F]) (storeAddr 0 64) [0, 0, 0, 0x40]) eVec)
    ((s.running? 0 0 (fun o => dOpcode o.desc == 0x18 && o.phase == .running)).any (fun o => s.engineUp o && !vBind o.desc)) = true ∧
    (after (.vectorDone 0 0) s).op? 0 0 = none ∧ (after (.vectorDone 0 0) s).mem.read (storeAddr 0 128) 4 = [0, 0, 0x40, 0x40] := by decide +kernel

/-- A vector command bound to the DMA before it, which has delivered. -/
theorem test_vector_bound : let o := { opA 5 (patch (patch eVec 17 [7]) 58 [4]) with core := some 0 }
    let r : List (Nat × Nat) := [(storeAddr (o.core.getD 0) (vX o.desc), fmtBytes (vFmtX o.desc) (vCount o.desc))]
    r = [(storeAddr 0 0, 16)] ∧ (withOp run o).bindReady o 4 r = true := by decide +kernel

/-- While that DMA delivers the operand's last bytes, it is not ready; a DMA to other bytes does not matter (R110, R186). -/
theorem test_vector_waits : let o := { opA 5 (patch (patch eVec 17 [7]) 58 [4]) with core := some 0 }
    let t (at_ : Nat) : Op :=
      { opA 4 (entry 0x20 [(16, 8, 0x10000), (24, 8, at_), (32, 1, 2), (33, 1, 0), (34, 1, 7), (35, 1, 7), (36, 4, 4)]) with core := some 0, fill := 15 }
    [0, 0x100].map (fun a => (withOp (withOp run (t a)) o).bindReady o 4 [(storeAddr 0 0, 16)]) = [false, true] := by decide +kernel

theorem test_transfers : [(Instr.dma 0 0, eDma), (.slice 0 0, eSlice)].all (fun e =>
      let s := after e.1 (hd (put run 0x10000 [1, 2, 3, 4, 5, 6, 7, 8, 9, 10, 11, 12, 13, 14, 15, 16]) e.2)
      (s.running? 0 0 (fun o => (dOpcode o.desc == 0x20 || dOpcode o.desc == 0x21) && o.phase == .running)).any (fun o =>
        s.engineUp o && (dOpcode o.desc == 0x21 || s.localSource o))
      && (after (.dmaDone 0 0) s).ops.isEmpty) = true ∧
    (after (.dmaDone 0 0) (after (.dma 0 0) (hd (put run 0x10000 [1, 2, 3, 4]) eDma))).mem.read 0x20000 4 = [1, 2, 3, 4] := by decide +kernel

def eRake : List Byte := entry 0x3C [(16, 6, 0x10000), (22, 6, 0x20000), (34, 5, 8)]

theorem test_rake : ready run 0x3C ctxA eRake = true ∧ (chk run (checkRake 0) ctxA eRake).isSome = true ∧
    ctxA.clusters.getLsbD 0 = true ∧ run.clusterUp 0 = true ∧
    (let s := after (.rake 0 0) (hd run eRake)
     (s.running? 0 0 (fun o => dOpcode o.desc == 0x3C && o.phase == .running)).any (fun o => !s.rakePaused o.cluster && !(s.cluster o.cluster).resetting)
     && ((after (.rakeDone 0 0) s).op? 0 0).isNone) = true := by decide +kernel

theorem test_acc_transfers : [(Instr.accLoad 0 0, eAcc 0x12), (.accStore 0 0, eAcc 0x13)].all (fun e =>
      let s := after e.1 (hd run e.2)
      (s.running? 0 0 (fun o => (dOpcode o.desc == 0x12 && o.phase == .running) ||
          (dOpcode o.desc == 0x13 && (o.phase == .running || o.phase == .held)))).any (fun o => o.phase == .running && !s.accBlocked o)) = true ∧
    (let o := { opA 0 (eAcc 0x13) with core := some 0, tiles := [0], gtiles := [0], phase := .held }
     (withOp run o).storeFree ctxA o) = true := by decide +kernel

theorem test_range_done : let s := after (.flushRange 0) (hd run (entry 0x02 [(16, 8, 0x10000), (24, 8, 64)]))
    (s.running? 0 0 (fun o => (dOpcode o.desc == 0x02 || dOpcode o.desc == 0x03) && o.phase == .acting)).isSome = true ∧
    (after (.rangeOperationDone 0 0) s).ops = [] := by decide +kernel

theorem test_digest : let o := { opA 0 eDma with phase := .digest, slots := 3 }
    ((withOp run o).running? 0 0 (fun o => o.phase == .digest)).isSome = true ∧ run.digPaused (run.digestCluster o) = false ∧
    (after (.digestDone 0 0) (withOp run o)).ringsAt 0 = some (0, 3) := by decide +kernel

/-- A WAIT for GE 1 on a word of 0, and with the word 1 (R286); its timeout of 5 ns at its end (R215). -/
def waiting : Op := { opA 0 (entry 0x05 [(16, 8, 0x10000), (24, 8, 1), (32, 1, 2), (36, 4, 5)]) with phase := .acting }

theorem test_wait_poll : let s := withOp run waiting
    let u := put s 0x10000 [1]
    (s.running? 0 0 (fun o => dOpcode o.desc == 0x05 && o.phase == .acting)) = some waiting ∧
    s.poisonAt (fld waiting.desc 16 8) 8 = [] ∧ waitMet waiting.desc (natOf (s.bytesAt (fld waiting.desc 16 8) 8)) = false ∧
    waitMet waiting.desc (natOf (u.mem.read (fld waiting.desc 16 8) 8)) = true ∧
    (after (.waitPoll 0 0) s).ops.length = 1 ∧ (after (.waitPoll 0 0) u).ops = [] := by decide +kernel

theorem test_wait_timeout : let s := { withOp run waiting with time := { run.time with now := 10000000005 } }
    waitDeadline waiting = some s.nowN ∧ (after (.waitTimeout 0 0) s).mem.read 0x4008 1 = [0x18] ∧
    (after (.waitTimeout 0 0) (withOp run waiting)) = withOp run waiting := by decide +kernel

/-- A DMA of 16 bytes from the host that has asked for them. -/
def hostOp : Op :=
  { opA 0 (entry 0x20 [(16, 8, 0x5000), (24, 8, 0x20000), (32, 1, 4), (33, 1, 1), (34, 1, 7), (35, 1, 7), (36, 4, 4)]) with
    core := some 0, asked := 16, ext := 0 }

theorem test_host_data : let s := withOp run hostOp
    let data : List Byte := [1, 2, 3, 4, 5, 6, 7, 8, 9, 10, 11, 12, 13, 14, 15, 16]
    s.op? 0 0 = some hostOp ∧ s.ctx 0 = some ctxA ∧ hostTransfer hostOp = true ∧ s.engineUp hostOp = true ∧ s.pcie.l0 = true ∧
    hostOp.bytes.length + data.length ≤ hostOp.asked ∧ hostOp.parts = [] ∧ s.frost.phase = .running ∧ s.dmaHole hostOp = none ∧
    ((after (.hostReadCompletion 0 0 data false) s).op? 0 0).map (fun o => o.bytes) = some data := by decide +kernel

/-! ### Trug, collectives, Pruners -/

/-- A slot descriptor: BF16 weights and activations, FP32 out, K 2, N 1, home cluster 0, timeout 0. -/
def slotDesc : List Byte :=
  patch (patch (patch (patch (patch (List.replicate 64 0) 2 [1]) 18 [2]) 26 [3]) 44 [2]) 48 [1, 0, 5, 5, 7, 0, 1]
def trugCtx : Context := { ctxA with sqTail := 2 }
def eSlot : List Byte := entry 0x28 [(16, 2, 7)]
def trugRun : State :=
  { put run 0x1040 slotDesc with
    ctxs := some trugCtx :: List.replicate 63 none
    slots := [(7, { ctx := 0, desc := 0 })] }

theorem test_slot_set : ready trugRun 0x28 trugCtx eSlot = true ∧ 2 ≤ (trugCtx.sqTail - trugCtx.sqHead).toNat ∧
    (hd trugRun eSlot).entryBad trugCtx 1 = [] ∧
    (chk trugRun (checkSlotSet ((hd trugRun eSlot).entryAt trugCtx 1)) trugCtx eSlot).isSome = true ∧
    (after (.trugSlotSet 0) (hd trugRun eSlot)).ringsAt 0 = some (2, 1) ∧
    (after (.trugSlotSet 0) (hd trugRun eSlot)).slots = [(7, { ctx := 0, desc := blockOf slotDesc })] := by decide +kernel

/-- A slot that is not the context's is BAD_SHAPE at offset 16 (R120, R122). -/
theorem test_slot_not_mine : (after (.trugSlotSet 0) (hd { trugRun with slots := [] } eSlot)).mem.read 0x4008 1 = [0x12] := by decide +kernel

def ePost : List Byte := entry 0x29 [(16, 2, 7), (18, 1, 1)]
def postRun : State := { run with slots := [(7, { ctx := 0, desc := blockOf slotDesc })] }
def posted : State := after (.trugPost 0) (hd postRun ePost)

theorem test_trug : ready postRun 0x29 ctxA ePost = true ∧ (chk postRun checkPost ctxA ePost).isSome = true ∧
    posted.batches.map (fun b => (b.cluster, b.pass, b.reqs.map (fun r => (r.idx, r.slot, r.deadline)))) = [(0, none, [(0, 7, 10000000000)])] ∧
    (posted.dueBatch 0).isSome = true ∧ posted.clusterUp 0 = true ∧ posted.frost.phase = .running := by decide +kernel

theorem test_trug_pass : let s := after (.trugDeadline 0 5) posted
    s.passes = 1 ∧ (s.batches.find? (fun b => b.pass == some 1)).any (fun b => b.core == some 5 && b.cluster == 0 && !s.passBehind b
      && (b.reqs.head?.bind (fun r => s.op? r.ctx r.idx)).any (fun q => s.mayFinish { q with cluster := 0, core := some 5 })) = true ∧
    (s.core 5).resetting = false ∧ (s.cluster 0).resetting = false ∧
    s.pwr.shed = 0 ∧ (after (.trugPassDone pass1) s).batches = [] ∧ (after (.trugPassDone pass1) s).ringsAt 0 = some (1, 1) := by decide +kernel

/-- Chips 0 (this device) and 1 in one ring over ports 0 and 1, the group formed. -/
def ringSet : CollSet := { id := 3, members := [0, 1], rings := [{ cw := 0, ccw := 1, order := [0, 1] }], refused := false }
def linkUp : Link :=
  { Link.reset with
    state := .up
    peerChip := 1
    admitted := true
    authOk := true
    crShared := 1000
    crVc := List.replicate 8 1000 }
def grouped : State :=
  { run with
    sets := [ringSet]
    links := linkUp :: { linkUp with peerPort := 1 } :: List.replicate 22 .reset
    group := { run.group with formed := true, state := .running, role := .worker } }
def eColl (opc : Nat) : List Byte :=
  entry opc [(16, 8, 0x10000), (24, 8, 0x20000), (32, 5, 64), (40, 1, 7), (41, 1, 7), (42, 1, 3)]

theorem foldl_keeps {α β : Type} (P : β → Prop) (f : β → α → β) (hf : ∀ b a, P b → P (f b a)) (l : List α) (b : β) (hb : P b) :
    P (l.foldl f b) := by
  induction l generalizing b with
  | nil => exact hb
  | cons a t ih => exact ih _ (hf b a hb)

/-- The duty to write a segment's result stays, whatever a member sends first. -/
theorem begin_keeps_writes (e : CollSet) (d : Block) (h : kReduce d = true) (k : Nat) (u : State) (q : Coll)
    (hq : (2, k) ∈ q.left) : (2, k) ∈ (u.collBegin q d e).1.left := by
  refine foldl_keeps (fun (a : Coll × State) => (2, k) ∈ a.1.left) _ ?_ _ _ hq
  rintro ⟨c, s⟩ p hc
  have hc : (2, k) ∈ c.left := hc
  have hd (m n : Nat) (hm : m ≠ 2) (c : Coll) (hc : (2, k) ∈ c.left) : (2, k) ∈ (c.done m n).left := by
    simp [Coll.done, hc, Ne.symm hm]
  simp only [if_pos h]
  split <;> (repeat' split) <;> (repeat' apply hd) <;> first | exact hc | decide
theorem test_collectives : grouped.collHeld = [] ∧ grouped.collSet 3 = some ringSet ∧ ringSet.refused = false ∧ grouped.group.formed = true ∧
    (∀ n ∈ ringSet.ports, (grouped.link n).state = .up) ∧ grouped.colls = [] ∧
    [(Instr.allReduce 0, 0x30), (.reduceScatter 0, 0x31), (.allGather 0, 0x32), (.broadcast 0, 0x33)].all (fun e =>
      ready grouped e.2 ctxA (eColl e.2) && (chk grouped checkColl ctxA (eColl e.2)).isSome
      && ((after e.1 (hd grouped (eColl e.2))).ringsAt 0).any (fun p => p.1 == 1)) = true := by decide +kernel

theorem test_collective_stays (u : State) (q : Coll)
    (h : q.left = (collPlan (blockOf (eColl 0x30)) ringSet).flatMap (duties (blockOf (eColl 0x30)) ringSet (ringSet.rank grouped.group.self))) :
    (u.collBegin q (blockOf (eColl 0x30)) ringSet).1.left ≠ [] := by
  have hm : (2, 0) ∈ q.left := by rw [h]; decide +kernel
  exact List.ne_nil_of_mem (begin_keeps_writes _ _ (by decide +kernel) 0 u q hm)

def ePrune : List Byte :=
  entry 0x38 [(16, 6, 0x10000), (22, 6, 0x20000), (28, 6, 0x30000), (34, 6, 0x50000), (40, 5, 4), (49, 1, 1), (50, 1, 7), (52, 4, 1)]
def eSweep : List Byte :=
  entry 0x39 [(16, 6, 0x10000), (22, 6, 0x20000), (34, 5, 4), (39, 1, 1), (40, 1, 7), (48, 6, 0x60000)]

theorem test_pruners : [(Instr.pruneUpdate 0, 0x38, ePrune, checkPrune), (.sweep 0, 0x39, eSweep, checkSweep)].all (fun e =>
      (freshShares (blockOf e.2.2.1)).all id == false && ready run e.2.1 ctxA e.2.2.1 && (chk run e.2.2.2 ctxA e.2.2.1).isSome
      && (after e.1 (hd run e.2.2.1)).pruneQ.length == 1) = true ∧ run.pruneQ = [] ∧ pRule (blockOf ePrune) ≠ 3 ∧
    run.sweepClosing = false := by decide +kernel

def pruning : State := after (.pruneUpdate 0) (hd run ePrune)

theorem test_pruner_share : (pruning.prNext 0 pruning.pruneQ []).any (fun e => e.1 == unitAt e.1 pruning.pruneQ 0
      && pruning.prune? e.1.ctx e.1.idx == some e.1 && pruning.mayFinish e.2) = true ∧
    (pruning.hbm 0).prnReset = false ∧ pruning.pwr.shed < 6 := by decide +kernel

/-- A rule 3 command that waits for its exchange; chip 1 sends its partials. -/
def exchanging : State :=
  withOp { grouped with pruneQ := [{ newPrune (opA 0 (patch ePrune 51 [3])) .exchange with done := List.replicate 8 true }] }
    (opA 0 (patch (patch ePrune 49 [3]) 51 [3]))
def partOf1 : NormPart := { chip := 1, w := 0x3FF0_0000_0000_0000, u := 0x3FF0_0000_0000_0000, poisoned := false, nonfinite := false }

theorem test_exchange : (exchanging.prune? 0 0).any (fun p => p.phase == .exchange
      && (sortParts ringSet.members (p.own exchanging.group.self :: [partOf1])).length == ringSet.members.length) = true ∧
    (exchanging.op? 0 0).any (fun o => exchanging.mayFinish o && exchanging.collSet (pSet o.desc) == some ringSet) = true := by decide +kernel

theorem test_collective_timeout : let s := after (.allReduce 0) (hd grouped (eColl 0x30))
    let u := { s with time := { s.time with now := 10050000000 } }
    u.colls.map (fun q => decide (q.deadline ≤ u.nowN)) = [true] ∧ u.frost.phase = .running ∧
    (after (.collectiveTimeout 0 0) u).colls = [] ∧ (after (.collectiveTimeout 0 0) u).mem.read 0x4008 1 = [0x22] := by decide +kernel

theorem test_issue_resume : let s := { run with ctxs := some { ctxA with issueWait := some .completionEntries } :: List.replicate 63 none }
    s.frost.phase = .running ∧ s.sun.suspects = [] ∧ s.sun.replay = none ∧ s.ops = [] ∧
    ready s 0x00 { ctxA with issueWait := some .completionEntries } (entry 0x00 []) = true ∧ (ctxA.issueWait).isNone = true ∧
    (after (.issueResume 0) (hd s (entry 0x00 []))).ringsAt 0 = some (1, 1) := by decide +kernel

theorem test_free_core : let s := { run with
      coreWait := [(0, 0)]
      ctxs := some { ctxA with issueWait := some (.freeCore 0) } :: List.replicate 63 none }
    s.coreUp 15 = true ∧ (s.core 15).bound = none ∧ s.batches = [] ∧ ready s 0x18 { ctxA with issueWait := some (.freeCore 0) } eVec = true ∧
    (chk s (checkVec 15) { ctxA with issueWait := some (.freeCore 0) } eVec).any (fun o => o.core == some 15) = true ∧ 15 < s.cores.length ∧
    ((hd s eVec).coreWait.find? (fun w => ((hd s eVec).ctx w.1).any (fun y => y.clusters.getLsbD (15 / 16)))) = some (0, 0) ∧
    ((after (.freeCoreGrant 15) (hd s eVec)).core 15).bound = some (0, 0) := by decide +kernel

/-! ### The host port -/

/-- `s` with context 0 changed. -/
def withCtx (s : State) (x : Context) : State := { s with ctxs := some x :: List.replicate 63 none }

/-- R199 at its edges: the ring of 64 takes tails 1 to 64 past the head (the tail stands at 1), CQ_HEAD moves from 1 up to CQ_TAIL 3. -/
theorem test_doorbells : let x : Context := { ctxA with cqHead := 1, cqTail := 3 }
    let s := withCtx run x
    s.ctx 0 = some x ∧ 1 ≤ s.start.stage ∧ s.served x = true ∧
    ([(1 : W32), 64, 65, 0].map (fun v => ((after (.sqTail 0 v) s).ctx 0).map (fun y => (y.sqTail, y.dbErrs))))
      = [some (1, 0), some (64, 0), some (1, 1), some (1, 1)] ∧
    ([(1 : W32), 3, 4, 0].map (fun v => ((after (.cqHead 0 v) s).ctx 0).map (fun y => (y.cqHead, y.dbErrs))))
      = [some (1, 0), some (3, 0), some (1, 1), some (1, 1)] := by decide +kernel

/-- R187: from a previous value 0xFFFF_FFFF, a doorbell value of 1 grants two bytes more. -/
theorem test_stream_grant : let s := withCtx run { ctxA with streams := List.replicate 8 { grant := 10, prev := 0xFFFF_FFFF, consumed := 0 } }
    ((after (.streamGrant 0 7 1) s).ctx 0).map (fun y => y.streams[7]?) = some (some { grant := 12, prev := 1, consumed := 0 }) := by
  decide +kernel

theorem test_bar2 : run.bar2Map 0x10000 4 = some 0x10000 ∧ run.bar2Open 0x10000 = true ∧ run.bar2Pass 0x10000 4 = true ∧
    run.frost.phase ≠ .frozen ∧ (∀ g ∈ granules 0x10000 4, structGranule ctxA g = false) ∧
    (after (.bar2Read 0x10000 4) (put run 0x10000 [1, 2, 3, 4])).out = [.bar2Data [1, 2, 3, 4] false] ∧
    (after (.bar2Write 0x10000 [5, 6, 7, 8] true) run).mem.read 0x10000 4 = [5, 6, 7, 8] ∧
    (after (.bar2Write 0x10000 [5, 6, 7, 8] true) run).mem.poison = [0x800] := by decide +kernel

/-- The last byte that region 0 admits, and the first past it (Completer Abort). -/
theorem test_bar2_edge : run.bar2Pass 0xF_FFFF 1 = true ∧ (after (.bar2Read 0x10_0000 1) run).out = [.bar2Abort] := by decide +kernel

theorem test_pcie : run.pcie.l0 = true ∧ (after .pcieLinkDown run).pcie.training = true ∧
    (after .functionLevelReset run).mbx.opened = false ∧ ((after .functionLevelReset run).ctx 0).all (fun x => x.status == .aborted) = true ∧
    (after .perstAssert run).pcie.perst = true ∧ (after .perstAssert run).pcie.l0 = false := by decide +kernel

theorem test_pcie_up : let s := { run with pcie := { run.pcie with l0 := false, training := true } }
    (after (.pcieLinkUp 6 16) s).pcie.flitMode = true ∧ (after (.pcieLinkUp 5 16) s).pcie.flitMode = false ∧
    (after .perstDeassert { run with pcie := { run.pcie with l0 := false, perst := true } }).pcie.training = true := by decide +kernel

theorem test_configuration : State.reset.stage0Reached = false ∧ run.stage0Reached = true ∧
    (after (.configurationRequest none) State.reset).out = [.configRetry] ∧
    (after (.configurationRequest (some (false, 0))) run).pcie.bar2Gib = 1 ∧
    (after (.configurationRequest (some (false, 9))) run).pcie.bar2Gib = 512 := by decide +kernel

/-! ### Mailbox and graft -/

/-- The answer in MBX_STAT. -/
def answer (s : State) : Bool × Bool × Byte × Nat := (s.mbx.done, s.mbx.busy, s.mbx.status, s.mbx.reason.toNat)
def okay : Bool × Bool × Byte × Nat := (true, false, 0, 0)

theorem test_mailbox_ready : run.mailboxReady ∧ State.reset.mbx.busy = false ∧ State.reset.start.stage = 0 := by
  unfold State.mailboxReady; decide +kernel

theorem test_mailbox_early : answer (after (.getStatus 1) run) = okay ∧ answer (after (.getStatus 1) State.reset) = okay ∧
    answer (after (.logRead 1 0) run) = okay ∧ answer (after (.hello 1 1 0) State.reset) = (true, false, 0x14, 1) := by decide +kernel

theorem test_mbx_go : let s := { run with mbx := { run.mbx with req := [(0, 1)] } }
    s.mayWrite .bar4 0x5_0000 = true ∧ fieldAt (s.reqBytes 0 16) 0 2 = 0x01 ∧ answer (after (.mbxGo .bar4) s) = okay := by decide +kernel

theorem test_recover_write : let s := { run with start := { run.start with halted := true, stage := 0 } }
    s.start.halted = true ∧ (s.proc 0).runs = true ∧ answer (after (.recoverWrite 1 0 [1]) s) = okay ∧
    answer (after (.recoverWrite 1 0 [1]) run) = (true, false, 0x14, 0xB) := by decide +kernel

def oneDump : Dump :=
  { num := 1, proc := .dmp, cause := 1, slot := 0, time := 0, body := { mcause := 0, mepc := 0, mtval := 0, body := [] }, logs := [], poison := false }

theorem test_dump_read : ({ run with fw := { run.fw with dumps := [oneDump] } }).dumpOf (1 : W32).toNat = some (Dump.bytes oneDump, false) := rfl

theorem test_sessions : (1 : Byte).toNat = run.fw.ifMajor ∧ (0 : Byte).toNat ≤ run.fw.ifMinor ∧ answer (after (.hello 1 1 0) run) = okay ∧ (after (.hello 1 1 0) run).mbx.session = 2 ∧
    answer (after (.hello 1 1 1) run) = (true, false, 0x35, 8) ∧ answer (after (.bar2Priv 1 1) run) = okay ∧ (after (.bar2Priv 1 1) run).mbx.priv = true ∧
    (after (.bar2Priv 1 0) run).mbx.priv = false ∧ answer (after (.graftStatus 1) run) = okay := by decide +kernel

theorem test_attest_shape : (run.proc 0).runs = true ∧ (0 : Byte).toNat ≤ 1 ∧ (1 : Byte).toNat ≤ 1 ∧
    3509 + 96 * run.sec.mlog.length + 2 * certLen ≤ (0x10_0000 : W32).toNat := by decide +kernel

/-- A context record: cluster 1, rings of 64 and 256 entries at 0x2_0000 and 0x3_0000, status block at 0x4_0000. -/
def ctxRec : Block :=
  blockOf (patch (patch (patch (patch (patch (List.replicate 64 0) 0 [0xFF, 2, 8, 0]) 4 (bytesOf 6 0x20000)) 10 [6, 0]) 12 (bytesOf 6 0x30000)) 18
    ([8, 0] ++ bytesOf 6 0x40000))

theorem test_ctx_create : 2 ≤ run.start.stage ∧ run.createCtx ctxRec = .inl (1, 8) ∧ answer (after (.ctxCreate 1 ctxRec) run) = okay ∧
    ((after (.ctxCreate 1 ctxRec) run).ctx 1).map (fun x => (x.slotBase, x.owner)) = some (8, .host 1) := by decide +kernel

theorem test_ctx_ends : run.hostCtx (0 : Byte).toNat = true ∧ answer (after (.ctxDestroy 1 0) run) = okay ∧ (after (.ctxDestroy 1 0) run).ctx 0 = none ∧
    ((after (.ctxAbort 1 0) run).ctx 0).map (fun x => x.status) = some .aborted := by decide +kernel

theorem test_ctx_of_group : let s := withCtx run { ctxA with owner := .group }
    [Instr.ctxDestroy 1 0, .ctxAbort 1 0, .regionSet 1 0 0 0 0].map (fun i => answer (after i s)) = List.replicate 3 (true, false, 0x14, 3) := by
  decide +kernel

/-- Entry 63 set to the first 4 KiB, valid and readable. -/
def newRegion : BitVec 128 := 0xFFF_0003_0000_0000_0000
def regionWaits : State := after (.regionSet 1 0 63 newRegion 0) run

theorem test_region_set : run.ownCtx (0 : Byte).toNat = true ∧ (63 : Byte).toNat ≤ 63 ∧ regionOk ctxA (regionOf newRegion) = true ∧
    ((regionWaits.ctx 0).bind (fun x => x.pending)).map (fun p => (p.index, p.deadline)) = some (63, 10100000000) ∧
    (regionWaits.ctx 0).any (fun x => regionWaits.regionReady 0 x) = true ∧ answer (after (.regionApply 0) regionWaits) = okay ∧
    ((after (.regionApply 0) regionWaits).ctx 0).bind (fun x => x.regions[63]?) = some (regionOf newRegion) := by decide +kernel

theorem test_region_timeout : let s := { regionWaits with time := { run.time with now := 10100000000 } }
    answer (after (.regionSetTimeout 0) s) = (true, false, 0x18, 0) ∧
    (after (.regionSetTimeout 0) regionWaits).mbx.busy = true := by decide +kernel

def cfgA : GroupCfg :=
  { groupId := 1, cfgSeq := 1, manager := 0, deputy := 1, slice := 0, policy := 0, replicas := 0, members := [0, 1], digest := 0 }

/-- A record of no member, at the start of the region. -/
theorem test_job_load : let s := { run with group := { run.group with cfg := some { cfgA with members := [] } } }
    s.leads = true ∧ inCtxRange 0x10000 32 = true ∧ s.poisonAt 0x10000 32 = [] ∧
    (s.group.cfg.bind (fun c => jobOf c (s.mem.read 0x10000 32))).isSome = true ∧ answer (after (.jobLoad 1 0x10000 32) s) = okay := by
  decide +kernel

/-- Zeros are no image; that a good image is one rests on a signature, which no concrete value can show (log entry 7). -/
theorem test_graft_stage_refuses : (run.fw.phase = phIdle ∧ (run.proc 0).runs = true ∧ inCtxRange 0x10000 0x2000 = true) ∧
    answer (after (.graftStage 1 0x10000 0x2000) run) = (true, false, 0x13, 0xD) := by decide +kernel

theorem test_graft_activate : let s := { run with fw := { run.fw with phase := phStaged } }
    s.graftDefers = none ∧ s.pwr.state = .active ∧ answer (after (.graftActivate 1) s) = okay ∧ (after (.graftActivate 1) s).fw.phase = phRunning := by
  decide +kernel

def grafting (f : FwState → FwState) : State := { run with fw := f { run.fw with phase := phRunning } }

theorem test_graft_phases :
    (after .graftWriteDone (grafting (fun f => { f with phase := phWriting }))).fw.phase = phStaged ∧
    (grafting (fun f => { f with readyBy := some 0, nextProc := 10 })).fw.procs.length = 11 ∧ handOrder[10]? = some 1 ∧
    (after .graftHandover (grafting (fun f => { f with readyBy := some 0, nextProc := 10 }))).fw.phase = phTrial ∧
    (after .graftHandover (grafting (fun f => { f with readyBy := some 0 }))).fw.nextProc = 1 ∧
    (grafting id).emergencyHolds = false ∧
    (after .graftHandoverResume (grafting (fun f => { f with verified := true }))).fw.readyBy = some 10500000000 ∧
    (after .graftReadyTimeout (grafting (fun f => { f with readyBy := some 10000000000 }))).fw.phase = phRolledBack ∧
    (after .graftReadyTimeout (grafting (fun f => { f with readyBy := some 10000000001 }))).fw.phase = phRunning := by decide +kernel

theorem test_graft_ends : let s := { grafting (fun f => { f with phase := phTrial }) with time := { run.time with now := 60000000000 } }
    s.fw.stepT + 60000000000 ≤ s.nowN ∧ s.fw.phase = phTrial ∧
    (after .graftDeferEnd (grafting (fun f => { f with phase := phDeferred }))).fw.phase = phRunning ∧
    (run.fw.verified = false ∧ (run.proc 0).runs = true) := by decide +kernel

/-! ### Registers -/

theorem test_shaped : run.shaped := by unfold State.shaped State.sized; decide +kernel
theorem test_sized : run.sized := test_shaped.1

/-- No value at 0x0C; SIZE before RESERVED (R557, R561, R562). -/
theorem test_failed_access : ¬ ((4 = 4 ∨ 4 = 8) ∧ 0x22 % 4 = 0) ∧ ¬ ((2 = 4 ∨ 2 = 8) ∧ 0x20 % 2 = 0) ∧ ¬ ((8 = 4 ∨ 8 = 8) ∧ 0x24 % 8 = 0) ∧
    regInfo 0x0C = none ∧ (after (.registerWrite .bar4 0x22 4 1) run).counter blkTop 0x04 = 1 ∧
    (after (.registerRead .bar4 0x0C 4) run).out = [.regData 0] ∧
    (after (.registerRead .bar4 0x0C 4) run).regs.accessErr = BitVec.ofNat 32 (2 ^ 31 + aeReserved * 2 ^ 28 + originCode .bar4 * 2 ^ 26 + 0x0C) := by
  decide +kernel

theorem test_denied_access : run.mayWrite .bar4 0x4_0000 = false ∧ (regInfo 0x4_0000).isSome = true ∧
    (regInfo 0x1_0000).any (fun i => !run.mayRead .sideband 0x1_0000 i && i.dom == .fabric) = true ∧
    (after (.registerRead .sideband 0x1_0000 4) run).out = [.regData 0] ∧
    State.reset.powered .fabric = false ∧ State.reset.mayWrite .bar4 0x1_0000 = true ∧
    (after (.registerRead .bar4 0x1_0000 4) State.reset).out = [.regData 0xFFFF_FFFF] := by decide +kernel

theorem test_reset_key : (0x5B : Byte) ≠ 0x5A ∧ run.mayWrite .firmware 0x10 = true ∧
    (after (.topResetCold .firmware 0x5B) run).start.stage = 3 ∧ (after (.topResetCold .firmware 0x5A) run).start.stage = 0 := by decide +kernel

theorem test_reset_requests : run.sun.parked = false ∧ run.resetCtl = 0 ∧ run.sun.recov = none ∧
    (after (.topResetWarm .firmware 0x5A) run).sun.recov = some { unit := .warm, at_ := run.nowN, esc := false } ∧
    (after (.topResetCluster .firmware 0x5A 0x80) run).sun.recov = some { unit := .cluster 7, at_ := run.nowN, esc := false } := by decide +kernel

def parkedRun : State := { run with sun := { run.sun with parked := true }, start := { run.start with halted := true } }

theorem test_unpark : parkedRun.mayWrite .firmware 0x10 = true ∧ (after (.unpark .bar4) parkedRun).sun.parked = false ∧
    (after (.unpark .bar4) parkedRun).start.resetWhy = 5 ∧ (after (.unpark .firmware) parkedRun).sun.parked = true := by decide +kernel

theorem test_admits : (∀ off ∈ [0x8_0100, 0x8_0104, 0x8_0108, 0xB_0010, 0x1_0000], run.mayWrite .firmware off = true
      ∧ (regInfo off).any (fun i => run.powered i.dom) = true) ∧ run.mayWrite .bar4 0x2_0000 = true ∧ run.mayWrite .bar4 0x20 = true := by
  decide +kernel

theorem test_mode_write : (after (.pwrModeWrite .bar4 1) run).modeReq = 1 ∧ (after (.pwrModeWrite .bar4 3) run).votes = run.votes := by
  decide +kernel

theorem test_perf_filter : let s := { run with perf := [(perfKey 5 0 0x13, 9)] }
    sparseWf 0 0 s.perf = true ∧ (after (.perfFilterWrite .bar4 .filter 0xFF) s).perf = [] ∧
    (after (.perfFilterWrite .bar4 .filter 0xFF) s).regVal 0x8_0100 = 0x7F := by decide +kernel

theorem test_bar2_base : let s := { run with pcie := { run.pcie with bar2On := false } }
    (after (.pcieBar2BaseWrite .bar4 0x3FF) s).regs.bar2Base = 0x1FF ∧ (after (.pcieBar2BaseWrite .bar4 0x3FF) run).regs.bar2Base = 0 := by
  decide +kernel

theorem test_shadow : shField 0x1_0100 = some (0xF_FFFF, 0x4E20) ∧ run.mayWrite .bar4 0x1_0100 = true ∧
    (after (.registerWrite .bar4 0x1_0100 4 0xFFFF_FFFF) run).regs.shadow = [(0x1_0100, 0xF_FFFF)] ∧
    (after (.registerWrite .bar4 0x1_0100 4 0xFFFF_FFFF) run).regs.active = [] := by decide +kernel

theorem test_swap : 1 ≤ run.start.stage ∧ (after (.cfgSwapRequest .bar4) run).voted .swap = 1 ∧
    (after (.cfgSwapWithdraw .bar4) (after (.cfgSwapRequest .bar4) run)).voted .swap = 0 ∧
    (let s := after (.cfgSwapRequest .bar4) (after (.registerWrite .bar4 0x1_0100 4 5) run)
     s.voted .swap ≠ 0 ∧ s.frost.phase = .running ∧ s.swapBoundary = true ∧ (after .cfgSwapPerform s).regs.active = [(0x1_0100, 5)] ∧
     (after .cfgSwapPerform s).regs.gen = 1) := by decide +kernel

theorem test_w1c : (after (.registerWrite .bar4 0x20 4 0x2) { run with regs := { run.regs with topEvent := 0xF } }).regs.topEvent = 0xD := by
  decide +kernel

/-- `run` with port 23 as `l`, LINK_CTL.ENABLE set or clear. -/
def onPort (l : Link) (on : W16) : State :=
  { run with
    links := List.replicate 23 .reset ++ [l]
    votes := { run.votes with linkEnable := List.replicate 23 (.of 0) ++ [.of on] } }

theorem test_link_control : (onPort .reset 0).sized ∧ (onPort .reset 0).mayWrite .firmware (blkLink 23) = true ∧
    (regInfo (blkLink 23)).any (fun i => run.powered i.dom) = true ∧ (onPort .reset 0).voted (.linkEnable 23) = 0 ∧
    ((after (.linkEnable .firmware 23) (onPort .reset 0)).link 23).state = .detect ∧
    (onPort linkUp 1).voted (.linkEnable 23) ≠ 0 ∧ ((after (.linkDisable .firmware 23) (onPort linkUp 1)).link 23).state = .shutdown ∧
    linkUp.state.live = true ∧ ((after (.linkRetrainRequest .firmware 23) (onPort linkUp 1)).link 23).cause = 7 := by
  unfold State.sized; decide +kernel

theorem test_held_enable : let s := after (.linkDisable .firmware 23) (onPort linkUp 1)
    HeldFunction.runner 23 ∈ s.pwr.shutting ∧ s.voted (.linkEnable 23) = 0 ∧
    HeldFunction.runner 23 ∈ (after (.linkEnable .firmware 23) s).pwr.enabling := by decide +kernel

/-! ### Wide mailboxes, reads, test access port -/

theorem test_wide : run.mayWrite .bar4 (wideBase .top + 0xF04) = true ∧ (run.bank (wideBase .top) (originBank .bar4)).valid = false ∧
    inCatalogue (wideBase .top) 0 = true ∧ inCatalogue (wideBase .top) 6 = false ∧ run.powered (wideDomain (wideBase .top)) = true ∧
    (let s := after (.wideSnap .bar4 .top) run
     let w := s.bank (wideBase .top) (originBank .bar4)
     w.valid = true ∧ w.noSel = false ∧ ((after (.wideSnap .bar4 .top) s).bank (wideBase .top) (originBank .bar4)).overrun = true ∧
     ((after (.wideDone .bar4 .top) s).bank (wideBase .top) (originBank .bar4)).valid = false) := by decide +kernel

theorem test_wide_select : sideWide (wideBase .top) = true ∧
    (let s := after (.smbusWrite (BitVec.ofNat 32 (wideBase .top + 0xF00)) 6 true) run
     s.bank (wideBase .top) 2 = { run.bank (wideBase .top) 2 with sel := 6 } ∧
     ((after (.wideSnap .sideband .top) s).bank (wideBase .top) 2).noSel = true) := by decide +kernel

/-- TOP_ID reads as the map gives it, on BAR4 and on the sideband (R563, R588). -/
theorem test_reads : (regInfo 0).any (fun i => run.mayRead .bar4 0 i && run.mayRead .sideband 0 i && run.powered i.dom) = true ∧ wideAt 0 = none ∧
    (after (.registerRead .bar4 0 4) run).out = [.regData 0x4C81_1111] ∧ (after (.smbusRead 0 true) run).out = [.smbusData 0 0x4C81_1111] ∧
    (after (.smbusRead 0 false) run).out = [.smbusNack] := by decide +kernel

theorem test_alert : parkedRun.sbAlert = true ∧
    (after .smbusAlertResponse { parkedRun with start := { parkedRun.start with sbAddr := 7 } }).out = [.alertAddr 0x5F] := by decide +kernel

theorem test_scan : State.reset.start.stage = 0 ∧ (after .extest State.reset).start.extest = true ∧ (after .extest run).out = [.jtagBypass] ∧
    (after .testLogicReset (after .extest State.reset)).start.extest = false ∧
    (after .stage1Reached { run with start := { run.start with stage := 0, extest := true } }).start.stage = 0 := by decide +kernel

/-! ### Frost -/

theorem test_frost_start : run.mayWrite .bar4 0x7_0000 = true ∧ run.frost.phase = .running ∧ (after (.frostStart .bar4) run).frost.holders = 1 ∧
    (after (.frostStart .bar4) run).frost.phase = .cutting ∧ run.votes.pinEn.vote 1 ≠ 0 ∧ (after .frostIn run).frost.holders = 4 ∧
    (after .frostIn { run with votes := { run.votes with pinEn := .of 0 } }).frost.holders = 0 := by decide +kernel

def cutting : State := after (.frostStart .bar4) run
def frozen : State := after .frostCutSettled cutting

theorem test_frost_command : ready run 0x07 ctxA (entry 0x07 []) = true ∧ ctxA.cperm.getLsbD 0 = true ∧
    (after (.frost 0) (hd run (entry 0x07 []))).frost.holders = 2 := by decide +kernel

theorem test_frost_cycle : cutting.sun.recov = none ∧ cutting.group.roll = none ∧ cutting.group.selfQ = [] ∧ frozen.frost.phase = .frozen ∧
    ((frozen.ctx 0).map (fun x => x.status)) = some .frozen ∧ frozen.frost.holders &&& 7 ≠ 0 ∧ frozen.frost.holders &&& 0x18 = 0 ∧
    (after (.frostThaw .bar4) frozen).frost.phase = .thawing ∧ (after (.frostThaw .bar4) run).frost.thawIgn = true ∧
    (after (.frostThaw .bar4) frozen).frost.held = [] ∧
    (after .frostThawDone (after (.frostThaw .bar4) frozen)).frost.phase = .running ∧
    ((after .frostThawDone (after (.frostThaw .bar4) frozen)).ctx 0).map (fun x => x.status) = some .active := by decide +kernel

theorem test_frost_completes : let s := after (.frostThaw .bar4) (after .frostCutSettled (after (.frost 0) (hd run (entry 0x07 []))))
    s.frost.phase = .thawing ∧ s.ops.map (fun o => (dOpcode o.desc, o.phase)) = [(0x07, .frostHeld)] ∧ s.cores.all (fun k => k.held.isEmpty) = true ∧
    s.clusters.all (fun k => !k.cspDue) = true ∧ s.group.plans = [] ∧ (after .frostThawDone s).ops = [] := by decide +kernel

/-! ### Power-up and the stages -/

/-- `run` at a position of the power-up sequence, at a stage. -/
def starting (pos stage : Nat) : State := { run with start := { run.start with seqPos := pos, stage := stage } }

theorem test_power_good : State.reset.start.good = false ∧ State.reset.sized ∧ (after (.pwrGoodRise 5) State.reset).start.sbAddr = 5 ∧
    (after (.pwrGoodRise 5) State.reset).start.good = true ∧ (999 < 1000 ∧ (after (.pwrGoodFall 999) run).start.good = true) ∧
    (after (.pwrGoodFall 10000) run).start = .reset ∧ (after (.pwrGoodFall 10000) run).ctx 0 = none := by
  unfold State.sized; decide +kernel

theorem test_power_up_step : let s := { starting 0 0 with start := { (starting 0 0).start with seqT := 0 } }
    s.start.seqT + s.stepDelay 0 ≤ s.nowN ∧ s.therm.tripPin = false ∧ s.start.halted = false ∧ (after .powerUpStep s).start.seqPos = 1 ∧
    [1, 7].all (fun k => (starting k 0).pwr.reqs.isEmpty && decide ((starting k 0).start.seqT + (starting k 0).stepDelay k ≤ (starting k 0).nowN)) = true ∧
    (after .powerUpStep (starting 7 0)).out = [.regulator .pcieA 1, .regulator .pcieH 1] ∧
    (after .powerUpStep (starting 2 0)).out = [.regulator .core 620] := by decide +kernel

def asked (retries : Nat) (sent : Nat) : State :=
  { starting 2 0 with pwr := { run.pwr with reqs := [{ rail := .core, mv := 620, sentAt := sent, retries := retries }] } }

theorem test_regulators : ((asked 0 0).pwr.reqs.find? (fun q => q.rail == .core)).isSome = true ∧
    (after (.regulatorAck .core) (asked 0 0)).start.seqPos = 3 ∧ (after (.regulatorAck .core) (asked 0 0)).pwr.coreMv = 620 ∧
    (after (.regulatorRetry .core) (asked 2 9999000000)).pwr.reqs.map (fun q => q.retries) = [3] ∧
    (after (.regulatorRetry .core) (asked 2 9999000001)).pwr.reqs.map (fun q => q.retries) = [2] ∧
    (after (.regulatorRetry .core) (asked 3 9999000000)).start.failCode = 0x0A ∧
    (after .pmbAlert run).out.length = 9 := by decide +kernel

theorem test_regulator_while_running : let s := { asked 3 0 with start := run.start }
    8 ≤ s.start.seqPos ∧ (after (.regulatorRetry .core) s).pwr.regFault = true ∧ (after (.regulatorRetry .core) s).start.stage = 0 := by
  decide +kernel

theorem test_may_start : (starting 8 0).mayStart = true ∧ (starting 8 1).start.stage = 1 ∧ (starting 8 1).powered .fabric = true := by
  decide +kernel

/-- Fewer than four failed trainings of a stack are no failure; four halt the start (R431). -/
theorem test_stage2 : let s := { starting 8 1 with
      start := { (starting 8 1).start with trainedOnce := false }
      hbms := List.replicate 8 .reset }
    (after (.stage2Reached [(7, 3)] []) s).start.stage = 2 ∧ (after (.stage2Reached [(7, 3)] []) s).hbms.all (fun h => h.trained) = true ∧
    (after (.stage2Reached [(7, 4)] []) s).start.failCode = 7 ∧ ((after (.stage2Reached [(7, 4)] []) s).hbm 7).trainFail = true := by
  decide +kernel

theorem test_stage3 : (starting 8 2).group.cfg = none ∧ (starting 8 2).start.failCode = 0 ∧ (upto 24).all (fun n => !(starting 8 2).linkOn n) = true ∧
    (after .stage3Alone (starting 8 2)).start.stage = 3 := by decide +kernel

theorem test_core_fails : ((starting 8 1).core 127).retired = false ∧ (starting 8 1).retired.length < 8 ∧
    ((after (.coreSelftestFail 127) (starting 8 1)).core 127).inService = false ∧ (after (.coreSelftestFail 127) (starting 8 1)).retired = [127] := by
  decide +kernel

/-! ### Clocks, temperature, supply sag -/

theorem test_clocks : (after .timerefLost run).time.lostFlag = true ∧ (after .timerefReturn (after .timerefLost run)).time.refLost = false ∧
    run.sun.recov = none ∧ run.sun.parked = false ∧ (after .hbmrefLost run).start.stage = 0 ∧ 23 / 12 = 1 ∧
    ((after (.runrefLost 1) (onPort linkUp 1)).link 23).cause = 3 ∧ ((after (.runrefLost 0) (onPort linkUp 1)).link 23).state = .up ∧
    (after (.runrefReturn 1) (after (.runrefLost 1) run)).runref = [true, true] := by decide +kernel

/-- The hottest of the readings, and the limit of 105 C (R458). -/
theorem test_sample : (run.proc 1).runs = true ∧ (after (.thermalSample [(0, 50), (10, 105), (3, 60)] []) run).therm.tj = 105 ∧
    (after (.thermalSample [(0, 50), (10, 105), (3, 60)] []) run).therm.site = 10 ∧
    (after (.thermalSample [(10, 105)] []) run).therm.overTj = true ∧ (after (.thermalSample [(10, 104)] []) run).therm.overTj = false := by
  decide +kernel

theorem test_limit : let s := { run with therm := { run.therm with hotAt := some 9999000000 }, votes := { run.votes with mode := .of 0 } }
    let u := { run with therm := { run.therm with coolAt := some 9000000000 }, pwr := { run.pwr with limit := 2 } }
    s.modeEff = 0 ∧ (after .thermalLimitLower s).pwr.limit = 1 ∧ (after .thermalLimitLower s).therm.hotAt = some 10000000000 ∧
    (after .thermalLimitRaise u).pwr.limit = 1 := by decide +kernel

def tripped (tj : Nat) : State := { run with therm := { run.therm with tripPin := true, tripped := true, tj := tj } }

theorem test_trip : run.therm.tripPin = false ∧ (after .thermalTrip run).start.stage = 0 ∧ (after .thermalTrip run).pwr.railsOn.contains .core = false ∧
    (tripped 94).mayWrite .sideband 0x2_0004 = true ∧ (after (.tripRestart .sideband) (tripped 94)).therm.tripPin = false ∧
    (after (.tripRestart .sideband) (tripped 95)).therm.tripPin = true := by decide +kernel

def shedding (k : Nat) : State := { run with pwr := { run.pwr with shed := k, shedT := 9999000000 } }

theorem test_shed : Rail.core ∈ run.pwr.railsOn ∧ (after (.shedStageEnter 0) run).pwr.shed = 0 ∧ (after (.shedStageEnter 7) run).pwr.shed = 7 ∧
    (after (.shedStageEnter 5) run).frost.holders.getLsbD 3 = true ∧ (after (.shedStageEnter 4) run).frost.holders = 0 ∧
    (after (.undervoltageWarning .core true) run).pwr.shed = 3 ∧ (after (.undervoltageWarning .core false) run).pwr.uvRails = [] ∧
    (after (.shedStageClear true) (shedding 1)).pwr.shed = 0 ∧ (after (.shedStageClear false) (shedding 1)).pwr.shed = 1 ∧
    (after (.shedStageClear true) (shedding 3)).pwr.shed = 2 ∧ (after (.undervoltageFatal .sramFault) run).mem.cells = [] := by decide +kernel

/-! ### Doze and Rest -/

/-- `run` with nothing on the ring of context 0, in a power state, at a step. -/
def power (st : PState) (step : Nat) : State := { withCtx run { ctxA with sqTail := 0 } with pwr := { run.pwr with state := st, step := step } }
def bare (st : PState) (step : Nat) : State := { power st step with ctxs := List.replicate 64 none }

theorem test_doze_request : (power .active 0).mayWrite .sideband 0x2_0004 = true ∧ (power .active 0).refuser false false = none ∧
    (bare .active 0).refuser true false = none ∧ (power .active 0).refuser true false = some (1, 0) ∧ run.refuser false false = some (1, 0) ∧
    (after (.dozeRequest .sideband) (power .active 0)).pwr.state = .enterDoze ∧ (after (.restRequest .sideband) (bare .active 0)).pwr.state = .enterRest ∧
    (after (.dozeRequest .sideband) run).pwr.refuse = 0x1100 ∧ (after (.activeRequest .sideband) (power .doze 0)).pwr.state = .leaveDoze ∧
    (after (.activeRequest .sideband) (power .rest 0)).pwr.state = .leaveRest := by decide +kernel

theorem test_wake : let w (st : PState) (k : Nat) : State := { power st k with pwr := { (power st k).pwr with wakeCfg := 0x3_1111 } }
    [WakeSource.pin 0, .pin 3, .pcie].all (fun x => (w .doze 0).wakeOn x) = true ∧ (w .doze 0).wakeOn (.runner 23) = true ∧
    (after (.wake (.pin 3)) (w .doze 0)).pwr.state = .leaveDoze ∧ (after (.wake .pcie) (w .enterDoze 1)).pwr.state = .active ∧
    (after (.wake .pcie) (w .enterDoze 2)).pwr.state = .enterDoze ∧ (w .enterDoze 1).entering = true ∧ (w .enterRest 1).entering = true := by
  decide +kernel

theorem test_doze_entry : (power .enterDoze 1).refuser false (power .enterDoze 1).pwr.byGroup = none ∧
    [1, 2, 3, 4].map (fun k => (after .dozeEntryStep (power .enterDoze k)).pwr.step) = [2, 3, 4, 5] ∧
    (power .enterDoze 5).pwr.coreMv = 620 ∧ HeldFunction.clusterSwitch ∉ (power .enterDoze 5).pwr.enabling ∧
    (after .dozeEntryStep (power .enterDoze 5)).pwr.state = .doze ∧ (after .drainAbandon (power .enterDoze 2)).pwr.state = .active ∧
    (after .drainAbandon (power .enterDoze 3)).pwr.state = .enterDoze := by decide +kernel

/-- A Runner with nothing to send is in KEEPALIVE after step 4 (R447). -/
theorem test_doze_link : let s := { power .enterDoze 4 with links := linkUp :: List.replicate 23 .reset }
    (s.link 0).state = .up ∧ (s.link 0).through = none ∧ (s.link 0).evDue = [] ∧ (s.link 0).sendQ = [] ∧ (s.link 0).replay.length < 1024 ∧
    ((after .dozeEntryStep s).link 0).state = .keepalive := by decide +kernel

theorem test_doze_exit : (after .dozeExitStep (power .leaveDoze 0)).pwr.step = 1 ∧ (power .leaveDoze 1).pwr.clusterOn < 8 ∧
    (after .dozeExitStep (power .leaveDoze 1)).pwr.clusterOn = 1 ∧ (after .dozeExitStep (power .leaveDoze 2)).pwr.state = .active := by decide +kernel

theorem test_rest_entry : [6, 7, 8].map (fun k => (after .restEntryStep (power .enterRest k)).pwr.step) = [7, 8, 9] ∧
    (after .restEntryStep (power .enterRest 8)).out = [.regulator .runA 0, .regulator .runH 0] := by decide +kernel

theorem test_shutdowns : let f (h : HeldFunction) (s : State) : State := { s with pwr := { s.pwr with shutting := [h] } }
    (after (.shutdownComplete (.rake 7)) (f (.rake 7) run)).pwr.shutting = [] ∧
    ((after (.shutdownComplete (.runner 23)) (f (.runner 23) (onPort { linkUp with state := .shutdown } 1))).link 23).state = .disabled ∧
    (let s := f (.runner 23) (onPort { linkUp with state := .shutdown } 1)
     ((after (.shutdownComplete (.runner 23)) { s with pwr := { s.pwr with enabling := [.runner 23] } }).link 23).state = .detect) ∧
    (after (.shutdownComplete .runnerRails) (f .runnerRails (power .enterRest 9))).pwr.state = .rest ∧ (power .enterRest 9).pwr.reqs = [] := by
  decide +kernel

/-! ### Hangs, resets, recovery -/

theorem test_core_hang : let s := after (.vec 0 127) (hd run eVec)
    let u := { s with time := { s.time with now := 10050000000 } }
    u.sized ∧ u.judges = true ∧ u.sun.recov = none ∧ u.replaying 0 = false ∧ (u.core 0).resetting = false ∧ u.coreWork 0 = true ∧
    u.coreProg 0 + u.window (.core 0) = u.nowN ∧ (after (.coreHang 0) u).sun.recov = some { unit := .core 0, at_ := u.nowN, esc := false } ∧
    (after (.coreHang 0) s).sun.recov = none := by unfold State.sized; decide +kernel

theorem test_cluster_hang : run.clusterUp 0 = true ∧ run.clusterWork 0 = true ∧ (run.cluster 0).progT + run.window (.cluster 0) ≤ run.nowN ∧
    ((after (.clusterHang 0) run).cluster 0).resetting = true := by decide +kernel

theorem test_runner_hang : let s := onPort { linkUp with replay := [{ seq := 0, bytes := [] }], ackProgT := 9990000000 } 1
    (s.link 23).state.live = true ∧ (s.link 23).replay ≠ [] ∧ (s.link 23).ackProgT + s.window (.port 23) = s.nowN ∧
    ((after (.runnerHang 23) s).link 23).cause = 6 := by decide +kernel

theorem test_pruner_hang : let s := { pruning with time := { run.time with now := 20000000000 } }
    (s.hbm 0).prnReset = false ∧ (s.prNext 0 s.pruneQ []).isSome = true ∧ (s.hbm 0).prnProgT + s.window (.pruner 0) ≤ s.nowN ∧
    ((after (.prunerHang 0) s).hbm 0).prnReset = true := by decide +kernel

theorem test_burst_gap : let o := { hostOp with bytes := [1], progT := 9000000000 }
    waitsHost o = true ∧ o.bytes ≠ [] ∧ o.gapSaid = false ∧ o.progT + 1000000000 = (withOp run o).nowN ∧
    (after (.burstGap 0 0) (withOp run o)).sun.event.getLsbD 1 = true := by decide +kernel

theorem test_self_check : (after (.sundialSelfCheck false) run).sun.event = 0 ∧ (after (.sundialSelfCheck true) run).sun.event.getLsbD 5 = true ∧
    (after (.sundialSelfCheck true) run).start.stage = 0 := by decide +kernel

def noDump : DumpBody := { mcause := 0, mepc := 0, mtval := 0, body := [] }

theorem test_silent : [Proc.secp, .pmp, .dmp, .csp 7].all (fun p => (run.proc (procNum p)).runs
      && decide ((run.proc (procNum p)).beatT + 20000000 ≤ run.nowN) && (run.proc (procNum p)).lastRun.isNone) = true ∧
    run.fw.phase ≠ phRunning ∧ run.fw.phase ≠ phTrial ∧ ((after (.processorSilent (.csp 7) noDump) run).proc 10).runs = false ∧
    (after (.processorSilent (.csp 7) noDump) run).sun.recov = some { unit := .proc (.csp 7), at_ := run.nowN, esc := false } := by decide +kernel

theorem test_resets : ((after (.coreReset 127) run).core 127).resetting = true ∧ ((after (.clusterReset 7) run).core 112).resetting = true ∧
    ((after (.portReset 23) (onPort linkUp 1)).link 23).cause = 6 ∧ ((after (.prunerReset 7) run).hbm 7).prnReset = true ∧
    (after (.deviceWarmReset 1) (put run 0x10000 [1])).mem.read 0x10000 1 = [1] ∧ (after (.deviceColdReset 5) (put run 0x10000 [1])).mem.cells = [] := by
  decide +kernel

/-- `run` while a unit is reset, since a time. -/
def recovering (u : ResetUnit) (t : Nat) : State := { run with sun := { run.sun with recov := some { unit := u, at_ := t, esc := false } } }

theorem test_reset_complete : [ResetUnit.core 5, .cluster 7, .pruner 7, .warm].all (fun u => (recovering u 0).resetReached u
      && (after (.resetComplete u []) (recovering u 0)).sun.recov.isNone) = true ∧ run.sun.queue = [] := by decide +kernel

theorem test_window_expiry : (recovering (.core 127) 9950000000).window (.core 127) = 50000000 ∧ run.recentEsc = [] ∧
    (after (.resetWindowExpiry (.core 127)) (recovering (.core 127) 9950000000)).sun.recov.map (fun r => r.unit) = some (.cluster 7) ∧
    (after (.resetWindowExpiry (.core 127)) (recovering (.core 127) 9950000001)).sun.recov.map (fun r => r.unit) = some (.core 127) ∧
    (let s := recovering .cold 0
     let u := { s with start := { s.start with stage := 1 }, sun := { s.sun with escT := [1, 2, 3] } }
     3 ≤ u.recentEsc.length ∧ u.resetReached .cold = false ∧ (after (.resetWindowExpiry .cold) u).sun.parked = true) := by decide +kernel

theorem test_second_fault : covers (.core 0) (.core 1) = false ∧
    (after (.secondFault (.unit (.core 1))) (recovering (.core 0) 0)).sun.queue = [.unit (.core 1)] := by decide +kernel

def replayingRun (t : Nat) : State := { run with sun := { run.sun with replay := some { cluster := 0, ctx := some 0, at_ := t, rest := [] } } }

theorem test_replay_end : (after (.suspectReplayEnd 0 .completed) (replayingRun 0)).sun.replay = none ∧
    (after (.suspectReplayEnd 0 .elapsed) (replayingRun 9900000000)).sun.replay = none ∧
    (after (.suspectReplayEnd 0 .elapsed) (replayingRun 9900000001)).sun.replay ≠ none ∧
    (let s := withOp (replayingRun 9990000000) { opA 0 eVec with rflags := rfReissued, core := some 0 }
     s.ops.any (fun o => o.ctx == 0 && o.rflags.getLsbD 5) = true ∧
     ((after (.suspectReplayEnd 0 .hang) s).ctx 0).map (fun x => x.status) = some .quarantined) := by decide +kernel

theorem test_crash : (after (.processorCrash .dmp .assertion noDump) run).fw.dumpNum = 1 ∧
    ((after (.processorCrash .dmp .assertion noDump) run).proc 2).runs = false ∧
    (let s := after (.processorCrash .pmp .exception noDump) run
     s.sun.recov.map (fun r => r.unit) = some (.proc .pmp) ∧ s.mbx.waitSec = none ∧ ((after (.processorRestart .pmp true) s).proc 1).runs = true ∧
     (after (.processorRestart .pmp false) s).start.stage = 0) := by decide +kernel

/-! ### Group time -/

/-- A member of a group of chips 0 (this device) and 1 (its manager, behind port 0). -/
def member : State :=
  { run with
    links := linkUp :: List.replicate 23 .reset
    ports := { PortEntry.off with peerChip := 1, syncPar := true } :: List.replicate 23 .off
    routes := [(1, 0x8000)]
    group := { run.group with cfg := some { cfgA with manager := 1, deputy := 2 }, formed := true, state := .running, role := .worker, manager := 1 } }

theorem test_sync : member.syncs = true ∧ member.time.lastReq + 1000000 ≤ member.nowN ∧ member.syncPort = some 0 ∧
    (after .syncInterval member).time.t1 = some (0, 10000000000) ∧ (member.link 0).through = none ∧ (member.link 0).replay.length < 1024 ∧
    (let s := { member with links := List.replicate 24 .reset }
     s.syncPort = none ∧ (after .syncInterval s).time.t1 = none) := by decide +kernel

theorem test_holdover : let s := { member with time := { member.time with sync := .locked, lastExch := 9995000000, port := some 0 } }
    s.syncs = true ∧ s.time.lastExch + 5000000 = s.nowN ∧ s.fallbackPort s.parentInUse = none ∧ (after .holdoverEntry s).time.sync = .holdover ∧
    (let u := { s with routes := [(1, 0x8004)], links := linkUp :: .reset :: .reset :: .reset :: linkUp :: List.replicate 19 .reset }
     u.fallbackPort u.parentInUse = some 4 ∧ (after .holdoverEntry u).time.port = some 4) := by decide +kernel

/-- The manager stays LOCKED (R56). -/
theorem test_manager_stays_locked : let s := { member with
      group := { member.group with role := .manager }
      time := { member.time with sync := .locked, lastExch := 0 } }
    s.syncs = false ∧ (after .holdoverEntry s).time.sync = .locked := by decide +kernel

theorem test_sync_return : member.parentPort = some 0 ∧ (member.link 0).upT + 1000000000 ≤ member.nowN ∧ member.time.port ≠ some 0 ∧
    (after .syncParentReturn member).time.port = some 0 := by decide +kernel

/-! ### Links -/

def portIn (st : LinkState) : State := onPort { linkUp with state := st, lanesGood := 0xF } 1

theorem test_training : ((after (.signalDetected 23) (portIn .detect)).link 23).state = .train ∧ lanePair 0xF = some 0xF ∧ lanePair 0x7 = some 3 ∧
    lanePair 0x6 = none ∧ (portIn .train).allowX2 23 = true ∧ ((after (.trainDone 23 0xF) (portIn .train)).link 23).state = .align ∧
    ((after (.trainDone 23 0x7) (portIn .train)).link 23).width2 = true ∧ ((after (.trainDone 23 0x6) (portIn .train)).link 23).cause = 4 ∧
    ((after (.alignDone 23) (portIn .align)).link 23).state = .negotiate := by decide +kernel

theorem test_four_lanes_only : let s := { portIn .train with votes := { (portIn .train).votes with linkAllowX2 := List.replicate 24 (.of 0) } }
    s.allowX2 23 = false ∧ ((after (.trainDone 23 0x3) s).link 23).cause = 4 := by decide +kernel

theorem test_retrain : ((after (.laneFail 23 3) (portIn .up)).link 23).state = .retrain ∧ ((after (.laneFail 23 3) (portIn .up)).link 23).lanesGood = 7 ∧
    (let s := { portIn .keepalive with votes := { (portIn .up).votes with linkAllowX2 := List.replicate 24 (.of 0) } }
     ((after (.laneFail 23 3) s).link 23).cause = 5) ∧
    ((after (.retrainDone 23 0xC) (portIn .retrain)).link 23).width2 = true ∧
    lanePair (0xC &&& 0xF) = some 0xC ∧ lanePair (0x9 &&& 0xF) = none ∧ ((after (.retrainDone 23 0xF) (portIn .up)).link 23).state = .up ∧ ((after (.retrainDone 23 0x9) (portIn .retrain)).link 23).cause = 5 := by
  decide +kernel

set_option maxRecDepth 200000 in
theorem test_link_losses : ((after (.lossOfSignal 23) (portIn .up)).link 23).cause = 3 ∧ ((after (.resetNotice 23) (portIn .keepalive)).link 23).cause = 2 ∧
    (run.group.role ≠ .manager ∧ run.group.deputy ≠ some run.group.self ∧ run.group.selfQ = []) ∧
    ((after (.linkDownRestart 23) (onPort { linkUp with state := .down, downT := 9999000000 } 1)).link 23).state = .detect ∧
    ((after (.linkDownRestart 23) (onPort { linkUp with state := .down, downT := 9999000001 } 1)).link 23).state = .down ∧
    ((after (.wakeFrame 23) (portIn .keepalive)).link 23).state = .up ∧
    ((after (.forwardHoldTimeout 23) (onPort { linkUp with through := some 0, holdT := some 9995000000 } 1)).link 23).through = none := by
  decide +kernel

/-- `run` in Doze at shed stage 6 with a Runner as a wake source. -/
theorem test_wake_frame_held : let s := { portIn .keepalive with pwr := { run.pwr with shed := 6, state := .doze, wakeCfg := 0x2_0000 } }
    s.wakeOn (.runner 23) = true ∧ (after (.wakeFrame 23) s).pwr.runnerWake = some 23 := by decide +kernel

theorem test_follows : ({ run with group := { run.group with manager := 1 } }).follows ∧ member.follows := by unfold State.follows; decide +kernel

/-! ### Flits -/

/-- A control flit body with ACK_SEQ 1, and a WRITE of one byte. -/
def ctlBody : List Byte := patch (List.replicate 252 0) 4 [1]
def writeBody : List Byte := patch (patch (patch (List.replicate 252 0) 0 [0x21, 1]) 14 [1]) 88 [0x55]

set_option maxRecDepth 200000 in
theorem test_flits : (portIn .up).sized ∧ ((portIn .up).link 23).state.hears = true ∧
    (let c (b : List Byte) (mark : Nat) := sealFlit b 0 mark
     (c ctlBody 0).length = 256 ∧ fieldAt (c ctlBody 0) 252 4 = flitCrc ctlBody 0 ∧
     ((after (.receiveFlit 23 (c ctlBody 0)) (portIn .up)).link 23).rxSeq = 1 ∧
     ((after (.receiveFlit 23 (c ctlBody 0)) (portIn .up)).link 23).ackedSeq = 1 ∧
     ((after (.receiveFlit 23 (c ctlBody 1)) (portIn .up)).link 23).rxSeq = 0 ∧ ((after (.receiveFlit 23 (c ctlBody 1)) (portIn .up)).link 23).nakSent = true ∧
     ((after (.receiveFlit 23 (c ctlBody holdMark)) (portIn .up)).link 23).rxSeq = 1) := by
  unfold State.sized; decide +kernel

set_option maxRecDepth 200000 in
theorem test_stomped : let l : Link := { linkUp with rx := some { msg := msgA, body := [], length := 500, mode := .drop } }
    fieldAt (sealFlit ctlBody 0 stompMark) 252 4 = flitCrc ctlBody 0 ^^^ stompMark ∧
    ((after (.receiveFlit 23 (sealFlit ctlBody 0 stompMark)) (onPort l 1)).link 23).rx = none := by decide +kernel

/-- A codeword that the FEC could not correct (R297, R330). -/
theorem test_bad_codeword : let s := after (.receiveFlit 23 []) (portIn .up)
    (s.link 23).rxSeq = 0 ∧ (s.link 23).nakSent = true ∧ s.counter (blkLink 23) 0x05 = 1 := by decide +kernel

theorem test_flit_kinds : fieldAt ctlBody 0 1 % 16 = 0 ∧ fieldAt writeBody 0 1 % 16 = 1 ∧ (msgOf writeBody).2 = 1 ∧
    (msgOf writeBody).1 = asOp opWrite (msgOf writeBody).1 ∧ (msgOf writeBody).1.data = [0x55] := by decide +kernel

theorem test_replay : let l (k : Nat) : Link := { linkUp with replay := [{ seq := 0, bytes := [1] }], noProg := k, ackProgT := 9999996000 }
    (l 14).ackProgT + 4000 = run.nowN ∧ ((after (.replayTimeout 23) (onPort (l 14) 1)).link 23).noProg = 15 ∧
    ((after (.replayTimeout 23) (onPort (l 15) 1)).link 23).state = .retrain ∧
    (after (.replayTimeout 23) (onPort (l 0) 1)).out = [.flit 23 { seq := 0, bytes := [1] }] := by decide +kernel

set_option maxRecDepth 200000 in
theorem test_ack_timer : let s := onPort { linkUp with sinceAck := 1, lastAckT := 9999999000 } 1
    (s.link 23).lastAckT + 1000 = s.nowN ∧ ((after (.ackTimer 23) s).link 23).sinceAck = 0 ∧ (s.link 23).through = none ∧ (s.link 23).replay.length < 1024 ∧
    (after (.ackTimer 23) s).out.head? = some (.flit 23 { seq := 0, bytes := sealFlit ((s.link 23).controlBody false []) 0 0 }) := by
  decide +kernel

/-! ### Messages between devices -/

/-- A message from chip 1 for job 7. -/
def fromOne (addr : Nat) (tag : W16) (opword : Nat) (data : List Byte) : Msg :=
  { vc := 0, op := 0, dst := 0, src := 1, job := 7, addr := BitVec.ofNat 48 addr, hops := 1, tag := tag, opword := BitVec.ofNat 32 opword
    poison := 0, data := data }

def grantTo1 (write : Bool) : HomeGrant := { id := 9, chip := 1, tag := 4, base := 0x10000, len := 64, write := write }
def home : State := withCtx member { ctxA with grants := [grantTo1 true, { grantTo1 false with id := 8 }] }

theorem test_takes_msg : home.sized ∧ home.mem.wf = true ∧ home.takesMsg 0 (fromOne 0 0 0 []) ∧ home.retiredHole 0x10000 64 = none := by
  unfold State.sized State.takesMsg State.opens; decide +kernel

/-- The first and the last bytes of the grant; one past it is dropped (R269, R270). -/
theorem test_remote_write : (home.jobCtx 7).isSome = true ∧ ((after (.write 0 (fromOne 0x10000 1 9 [7])) home).mem.read 0x10000 1) = [7] ∧
    ((after (.write 0 (fromOne 0x1003F 1 9 [7])) home).mem.read 0x1003F 1) = [7] ∧
    ((after (.write 0 (fromOne 0x10040 1 9 [7])) home).mem.read 0x10040 1) = [0] := by decide +kernel

theorem test_write_ack : let p (k : W16) : Posted := { ctx := 0, idx := 0, link := 0, chip := 1, tag := k, lost := false }
    (after (.writeAck 0 (fromOne 0 5 2 [])) { home with posted := [p 4, p 5, p 6] }).posted.map (fun q => q.tag) = [6] := by decide +kernel

theorem test_remote_read : home.route 1 = some 0 ∧ (home.grantFor (fromOne 0x10000 3 0 []) false 0x10000 64).isSome = true ∧
    (home.grantFor (fromOne 0x10000 3 0 []) false 0x10000 65) = none ∧
    ((after (.readReq 0 (fromOne 0x10000 3 64 [])) home).link 0).replay.length + (after (.readReq 0 (fromOne 0x10000 3 64 [])) home).out.length > 0 := by
  decide +kernel

/-- A DMA of 16 bytes from chip 1 whose read with tag 3 is outstanding. -/
def remoteOp : Op :=
  { opA 0 (entry 0x20 [(16, 8, 2 ^ 48 + 0x5000), (24, 8, 0x20000), (32, 1, 3), (33, 1, 2), (34, 1, 7), (35, 1, 7), (36, 4, 4)]) with
    core := some 0, reads := [{ tag := 3, link := 0, off := 0, len := 16, left := 16 }] }

theorem test_read_response : let s := withOp home remoteOp
    sideChip remoteOp 0 = 1 ∧ s.dmaHole remoteOp = none ∧ remoteOp.parts = [] ∧ (s.ctx 0).isSome = true ∧
    ((after (.readResp 0 (fromOne 0 3 0 [1, 2, 3, 4])) s).op? 0 0).map (fun o => o.bytes) = some [1, 2, 3, 4] := by decide +kernel

/-- A DMA to chip 1 whose WRITEs have been sent (R288). -/
theorem test_remote_sent : let o := { opA 0 (entry 0x20 [(16, 8, 0x10000), (24, 8, 2 ^ 48 + 0x5000), (32, 1, 2), (33, 1, 3), (34, 1, 7), (35, 1, 7), (36, 4, 4)]) with
      core := some 0
      phase := .sending }
    let s := withOp home o
    s.running? 0 0 (fun o => dOpcode o.desc == 0x20 && o.phase == .sending) = some o ∧ s.engineUp o = true ∧ s.unsent o = false ∧
    (after (.dmaDone 0 0) s).ops = [] := by decide +kernel

theorem test_remote_signal : home.remoteFault 7 [pmRemoteWrite] 0xF_FFF8 8 = none ∧ fieldAt [(0 : Byte), 5, 0, 0, 0, 0, 0, 0, 0] 0 1 ≠ 1 ∧
    (after (.remoteSignal 0 (fromOne 0xF_FFF8 1 0 [0, 5, 0, 0, 0, 0, 0, 0, 0])) home).mem.read 0xF_FFF8 1 = [5] ∧
    (after (.remoteSignal 0 (fromOne 0xF_FFF8 1 0 [1, 5, 0, 0, 0, 0, 0, 0, 0])) (put home 0xF_FFF8 [3])).mem.read 0xF_FFF8 1 = [8] := by
  decide +kernel

def awaiting : State := withOp home { opA 0 (entry 0x04 [(16, 8, 2 ^ 63 + 2 ^ 48 + 0x5000)]) with phase := .acting, reads := [{ tag := 3, link := 0, off := 0, len := 0, left := 0 }] }

theorem test_signal_ack : (awaiting.opAwaiting 0x04 3).any (fun o => sideChip o 0 == 1) = true ∧ (after (.signalAck 0 (fromOne 0 3 0 [])) awaiting).ops = [] ∧
    (4 + 65536 * 3) % 256 ≠ opSignal ∧ (opSignal + 65536 * 3) / 65536 = 3 ∧
    (after (.routeErr 0 (fromOne 0 0 (opSignal + 65536 * 3) [])) awaiting).ops = [] := by decide +kernel

theorem test_grant_request : (home.jobCtx 7).isSome = true ∧
    (let d : List Byte := bytesOf 8 64 ++ [3]
     home.remoteFault 7 [pmRemoteRead, pmRemoteWrite] 0x20000 64 = none ∧
     ((after (.grantReq 0 (fromOne 0x20000 6 0 d)) home).ctx 0).map (fun x => x.grants.length) = some 3) := by decide +kernel

def asking : State := withOp home { remoteOp with phase := .grantWait 0 3 9950000000, reads := [] }

theorem test_grant_answers : (asking.opAsking 3).isSome = true ∧ (after (.grantResp 0 (fromOne 0 3 0 [])) asking).ops = [] ∧
    home.opAsking 3 = none ∧ ((after (.grantRelease 0 (fromOne 0 4 9 [])) home).ctx 0).map (fun x => x.grants.map (fun g => g.id)) = some [8] ∧
    ((after (.grantRelease 0 (fromOne 0 4 0 [])) home).ctx 0).map (fun x => x.grants) = some [] ∧
    (asking.op? 0 0).any (fun o => asking.mayFinish o) = true ∧ (after (.grantTimeout 0 0) asking).ops = [] := by decide +kernel

/-- The header of a segment of collective 3, tag 0: flags, contributor, the digest of the parameters. -/
def segData (flags contrib : Nat) : List Byte :=
  patch (patch (patch (patch (List.replicate 400 0) 4 [3]) 5 (bytesOf 1 flags)) 8 (bytesOf 2 contrib)) 40 (bytesOf 4 (paramCrc (blockOf (eColl 0x30))))
def reducing : State := after (.allReduce 0) (hd grouped (eColl 0x30))

theorem test_coll_held : (headOf (fromOne 0 0 0 (segData 0 1))).set = 3 ∧ grouped.coll? 3 0 = none ∧ grouped.collOver.contains (3, 0) = false ∧
    grouped.relayTo (asOp opColl (fromOne 0 0 0 (segData 0 1))) = none ∧ grouped.relayTo (asOp opCollCheck (fromOne 0 0 0 (segData 0 1))) = none ∧
    (grouped.relayTo (asOp opColl (fromOne 0 0 0 (segData 1 1)))).isSome = true ∧
    (after (.coll 0 (fromOne 0 0 0 (segData 0 1))) grouped).collHeld.length = 1 ∧
    (after (.collCheck 0 (fromOne 0 0 0 (segData 0 1))) { grouped with pwr := { run.pwr with shed := 4 } }).adderQ.length = 1 := by decide +kernel

/-- ABORT ends the collective at once (R358). -/
theorem test_coll_abort : (headOf (fromOne 0 0 0 (segData 4 1))).has cfAbort = true ∧
    (after (.coll 0 (fromOne 0 0 0 (segData 4 1))) reducing).colls = [] ∧ (after (.coll 0 (fromOne 0 0 0 (segData 4 1))) reducing).op? 0 0 = none := by
  decide +kernel

theorem test_exchanges_idle : grouped.exchangesIdle ∧ reducing.exchangesIdle := by unfold State.exchangesIdle; decide +kernel

theorem test_coll_plan : (reducing.coll? 3 0).any (fun c => c.begun && reducing.colls.filter (fun q => q.is c) == [c]
      && (reducing.op? c.ctx c.idx).any (fun o => paramCrc o.desc == paramCrc (blockOf (eColl 0x30)))) = true ∧
    (headOf (fromOne 0 0 0 (segData 0 1))).has cfAbort = false ∧ (headOf (fromOne 0 0 0 (segData 2 1))).has cfGather = true ∧
    (headOf (fromOne 0 0 0 (segData 0 1))).crc = paramCrc (blockOf (eColl 0x30)) ∧
    (segOf 7 32 (fromOne 0 0 0 (segData 0 0))).contrib = ringSet.rank grouped.group.self ∧
    (collPlan (blockOf (eColl 0x30)) ringSet).any (fun p => !ordered (blockOf (eColl 0x30)) p && p.owner != ringSet.rank grouped.group.self) = true := by
  decide +kernel

/-! ### Groups -/

/-- The manager of a group of chips 0, 1 and 2 that forms: chip 1 has passed, chip 2 has not been heard. -/
def known (chip : BitVec 12) (admitted passed : Bool) : Member :=
  { chip := chip, serial := 0, admitted := admitted, passed := passed, failed := false, beatT := 0, recv := 0, done := 0, delayedT := none, ifMinor := 0 }
def manager : State :=
  { member with
    group := { member.group with
      cfg := some { cfgA with members := [0, 1, 2] }
      manager := 0
      role := .manager
      state := .admitted
      formed := false
      members := [known 0 true true, known 1 false true, known 2 false false] } }

/-- A GROUP message of TERM 0 from chip 1. -/
def groupMsg (t : Nat) (data : List Byte) : Msg := fromOne 0 0 t data
/-- JOIN: interface major 1, the configuration digest 0, CFG_SEQ 1. -/
def joinMsg : Msg := groupMsg 1 (patch (patch (List.replicate 98 0) 8 [1]) 74 [1])

theorem test_manager_takes : manager.sized ∧ manager.takesGroup 0 joinMsg ∧ member.takesGroup 0 joinMsg := by
  unfold State.sized State.takesGroup State.opens; decide +kernel

theorem test_join : manager.isManager = true ∧ manager.member? 1 = some (known 1 false true) ∧
    (joinMsg.data.drop 10).take 64 = bytesOf 64 (0 : Block).toNat ∧ fieldAt joinMsg.data 74 4 = 1 ∧ fieldAt joinMsg.data 8 1 = manager.fw.ifMajor ∧
    known 2 false false ∈ manager.group.members ∧ ((after (.join 0 joinMsg) manager).member? 1).map (fun m => m.admitted) = some true := by
  decide +kernel

theorem test_join_refused : let m := { joinMsg with data := patch joinMsg.data 10 [1] }
    (m.data.drop 10).take 64 ≠ bytesOf 64 (0 : Block).toNat ∧ manager.route 1 = some 0 ∧
    ((after (.join 0 m) manager).member? 1).map (fun e => e.admitted) = some false := by decide +kernel

def joining : State := { member with group := { member.group with state := .joining, formed := false } }

theorem test_admit : joining.follows ∧ joining.takesGroup 0 (groupMsg 2 (List.replicate 9 0)) ∧
    (after (.admitMsg 0 (groupMsg 2 [0, 5])) joining).group.state = .admitted ∧
    (after (.admitMsg 0 (groupMsg 2 [0, 5])) joining).group.commitE = 5 := by
  unfold State.follows State.takesGroup State.opens; decide +kernel

theorem test_refuse_stays : let s := { joining with group := { joining.group with state := .refused, reason := 2 } }
    s.takesGroup 0 (groupMsg 3 [6]) ∧ (after (.refuse 0 (groupMsg 3 [6])) s).group.state = .refused ∧
    (after (.refuse 0 (groupMsg 3 [6])) s).group.reason = 2 := by unfold State.takesGroup State.opens; decide +kernel

theorem test_refuse_formed : joining.group.state ≠ .refused ∧ (after (.refuse 0 (groupMsg 3 [2])) joining).group.state = .refused ∧
    (after (.refuse 0 (groupMsg 3 [6])) joining).group.state = .joining ∧
    (let s := { joining with group := { joining.group with state := .admitted }, start := { run.start with stage := 2 } }
     s.group.state.inGroup = true ∧ (after (.formed 0 (groupMsg 4 [0])) s).group.state = .running ∧
     (after (.formed 0 (groupMsg 4 [0])) s).start.stage = 3) := by decide +kernel

theorem test_verdict : let s := { manager with group := { manager.group with members := [known 0 true true, known 1 true true, known 2 false false] } }
    let m := fromOne 0 0 3 (patch (List.replicate 11 0) 0 [2, 0, 0, 0, 0, 0, 0, 0, 0, 0, 1])
    (s.member? 1).any (fun e => e.admitted) = true ∧ chipAt m.data 0 = 2 ∧ fieldAt m.data 10 1 = 1 ∧
    ((after (.verdict 0 m) s).member? 2).map (fun e => e.passed) = some true := by decide +kernel

theorem test_join_retry : joining.group.joinT = 0 ∧ joining.route joining.group.manager = some 0 ∧
    (after .joinRetry joining).group.joinT = 10000000000 := by decide +kernel

/-- The hypotheses of the answers to CHALLENGE and RESPONSE; what they sign and verify is opaque (log entry 7). -/
theorem test_peer_auth : let s := { joining with links := { linkUp with nonce := some 0 } :: List.replicate 23 .reset }
    s.opens 0 ∧ (s.proc 0).runs = true ∧ s.follows ∧ (s.link 0).nonce.isSome = true ∧ (s.link 0).groupHeld = [] := by
  unfold State.opens State.follows; decide +kernel

theorem test_verdict_repeat : let s := { joining with links := { linkUp with admitted := false, verdict := some (1, 0) } :: List.replicate 23 .reset }
    (s.link 0).verdictT + 100000000 ≤ s.nowN ∧ s.follows ∧ s.group.cfg.isSome = true ∧ s.route s.group.manager = some 0 ∧
    ((after (.verdictRepeat 0) s).link 0).verdictT = 10000000000 := by unfold State.follows; decide +kernel

/-- A job record with the context of `ctxRec` as number 1. -/
def jobRec : Block := blockOf (patch (bytesOf 64 ctxRec.toNat) 0 [1])
def jobData : List Byte := [1, 0, 64, 0] ++ bytesOf 64 jobRec.toNat

theorem test_job : jobRecords (jobData.length + 1) jobData = [(1, bytesOf 64 jobRec.toNat)] ∧ member.createCtx jobRec = .inl (1, 8) ∧
    cContext (blockOf ((bytesOf 64 jobRec.toNat).take 64)) = 1 ∧
    ((after (.job 0 (groupMsg 5 jobData)) member).ctx 1).map (fun x => x.owner) = some .group := by decide +kernel

theorem test_member_takes : member.sized ∧ member.takesGroup 0 (groupMsg 5 jobData) ∧ member.follows ∧ member.group.state.inGroup = true := by
  unfold State.sized State.takesGroup State.opens State.follows; decide +kernel

theorem test_plan : (planOf (patch (List.replicate 16 0) 0 [1])).epoch = 1 ∧
    (after (.plan 0 (groupMsg 6 (patch (List.replicate 16 0) 0 [1]))) member).group.epochRecv = 1 := by decide +kernel

theorem test_beat_commit : (after (.mgrBeat 0 (groupMsg 9 (patch (List.replicate 16 0) 8 [3]))) member).group.commitE = 3 ∧
    (after (.mgrBeat 0 (groupMsg 9 [0])) member).group.beatMgr = 10000000000 ∧ (after (.commit 0 (groupMsg 14 [4])) member).group.commitE = 4 ∧
    (after (.takeover 0 (groupMsg 15 [0])) { member with group := { member.group with state := .held } }).group.state = .frosted := by decide +kernel

/-- A collective of a planned context, whose CMD_TAG is the epoch 2. -/
theorem test_withdraw : let s := after (.allReduce 0) (hd { grouped with
      ctxs := some { ctxA with owner := .group } :: List.replicate 63 none
      group := member.group } (patch (eColl 0x30) 8 [2]))
    s.colls.length = 1 ∧ s.ops.all (fun o => s.planOp (fun e => e == 2) o) = true ∧
    (after (.withdraw 0 (groupMsg 11 [2])) { s with group := member.group }).colls = [] := by decide +kernel

theorem test_discard : let p : Plan := { epoch := 2, step := 0, kind := 0, update := 0, replay := false, items := [], item := 0, entry := 0 }
    (after (.discard 0 (groupMsg 12 [2])) { member with group := { member.group with plans := [p, { p with epoch := 1 }] } }).group.plans.map (fun q => q.epoch)
      = [1] := by decide +kernel

theorem test_thaw : let s := { member with
      frost := { run.frost with holders := 0x10, phase := .frozen, group := true }
      group := { member.group with state := .frosted } }
    s.frost.id = fieldAt (bytesOf 4 s.frost.id) 0 4 ∧ s.frost.holders.getLsbD 4 = true ∧
    (after (.thaw 0 (groupMsg 13 (bytesOf 4 s.frost.id))) s).group.state = .waitRejoin := by decide +kernel

theorem test_heartbeat : (after (.heartbeat 0 (groupMsg 8 [6, 0, 0, 0, 5])) manager).member? 1
    = some { known 1 false true with recv := 6, done := 5, beatT := 10000000000 } ∧
    (after (.report 0 (groupMsg 10 [BitVec.ofNat 8 rpTimeOffset])) manager).group.reports = [(mrTime, 1)] := by decide +kernel

/-- One NOP template at 0x10000 to be copied for epoch 3. -/
theorem test_plan_copy : let p : Plan := { epoch := 3, step := 0, kind := 0, update := 0, replay := false
                                           items := [{ ctx := 0, setStep := false, entries := 1, addr := 0x10000 }], item := 0, entry := 0 }
    let x : Context := { ctxA with owner := .group, sqTail := 0 }
    let s := put (withCtx { member with group := { member.group with plans := [p] } } x) 0x10000 (entry 0x00 [])
    s.mem.wf = true ∧ s.ctx 0 = some x ∧ x.planned = true ∧ (x.sqTail - x.sqHead).toNat < 2 ^ x.sqLog2 ∧ s.votes.swap.vote 0 = 0 ∧
    (after .planCopyResume s).mem.read 0x1008 4 = [3, 0, 0, 0] ∧ ((after .planCopyResume s).ctx 0).map (fun y => y.sqTail) = some 1 := by
  decide +kernel

/-- A record with its digest extension is three entries (R223). -/
theorem test_plan_record : let x : Context := { ctxA with owner := .group, cqTail := 3 }
    ((after (.planRecordRead 0) (withCtx member x)).ctx 0).map (fun y => y.cqHead) = some 1 ∧
    ((after (.planRecordRead 0) (put (withCtx member x) 0x4009 [2])).ctx 0).map (fun y => y.cqHead) = some 3 ∧ x.cqHead ≠ x.cqTail := by
  decide +kernel

theorem test_heartbeat_interval : member.group.beatSent + 10000000 ≤ member.nowN ∧ member.route member.group.manager = some 0 ∧
    (after .heartbeatInterval member).group.beatSent = 10000000000 := by decide +kernel

/-! ### Losses -/

def formedGroup : State :=
  { manager with group := { manager.group with
      formed := true
      state := .running
      members := [known 0 true true, { known 1 true true with beatT := 9950000000, delayedT := some 9000000000 }, known 2 true true] } }

theorem test_member_lost : formedGroup.isManager = true ∧ formedGroup.group.roll = none ∧ (1 : BitVec 12) ≠ formedGroup.group.self ∧
    (after (.memberLost 1) formedGroup).group.waiting = [1] ∧ (after (.memberLost 1) formedGroup).frost.holders.getLsbD 4 = true ∧
    (after (.readyTimeout 1) formedGroup).group.waiting = [1] ∧ ((after (.memberLost 1) formedGroup).member? 1).map (fun m => m.admitted) = some false := by
  decide +kernel

theorem test_takeover : let s := { member with group := { member.group with role := .deputy, deputy := some 0, beatMgr := 9950000000 } }
    s.group.role = .deputy ∧ s.group.formed = true ∧ s.group.beatMgr + 50000000 = s.nowN ∧ (after .deputyTakeover s).group.role = .manager ∧
    (after .deputyTakeover s).group.term = 1 := by decide +kernel

theorem test_manager_lost : let s := { member with group := { member.group with beatMgr := 9900000000 } }
    s.isManager = false ∧ s.group.beatMgr + 100000000 = s.nowN ∧ s.group.state ≠ .held ∧ (after .managerLost s).group.state = .held := by
  decide +kernel

/-! ### RAS events, votes -/

theorem test_scrub : run.scrubRuns 7 = true ∧ ((after (.patrolScrub 7 [] 0) run).hbm 7).scrubSlot = 1 ∧
    (let s := { run with hbms := List.replicate 8 { Hbm.reset with trained := true, scrubSlot := 14, scrubFrame := 2097150 } }
     s.scrubRuns 7 = true ∧ ((after (.patrolScrub 7 [] 0) s).hbm 7).scrubFrame = 2097151) ∧
    ((after (.ecsReadout 7 3 true) run).hbm 7).errStat.getLsbD 3 = true ∧ (after (.ecsReadout 7 3 true) run).counter (blkHbm 7) 9 = 3 := by decide +kernel

theorem test_sector_poisoned : isHbm 0x8000 = true ∧ 2 ≤ run.start.stage ∧
    [0x8000 / 64 * 64 / 32, 0x8000 / 64 * 64 / 32 + 1].flatMap run.structOwners = [0, 0] ∧
    ((after (.sectorPoisoned (.memory 0x8000)) run).ctx 0).map (fun x => x.status) = some .aborted := by decide +kernel

theorem test_sram_events : ((after (.sectorPoisoned (.stationary 17 0 0)) run).core 17).event = 8 ∧
    ((after (.sectorPoisoned (.tag 7 false)) run).cluster 7).event = 16 ∧
    ((after (.sectorPoisoned (.memory 0x0100_0000_0040)) run).cluster 0).event = 8 := by decide +kernel

theorem test_req_stall : run.powered .fabric = true ∧ (after .reqStall run).regs.trlEvent = 1 := by decide +kernel

theorem test_votes : let s := after (.voteUpset .mode 1 0 0) run
    run.votes.get .mode = .of 2 ∧ s.votes.mode = { c0 := 3, c1 := 2, c2 := 2 } ∧ s.modeReq = 2 ∧ (after .voteScrub s).votes.mode = .of 2 := by decide +kernel

theorem test_frames : quietEvent .timerefLost = true ∧ (after .timerefLost run).time.refLost = true ∧ streamCommand (.nop 0) = true := by
  decide +kernel

end Sys2Proof.Tests
end

section
/-! SUPPORT. The doorbells of the host port (R187, R197, R199): a doorbell write wakes the device but leaves all that the doorbell then
reads; an SQ_TAIL or CQ_HEAD write is taken, or ignored and counted; a grant write moves its stream on. -/

namespace Sys2Proof.Machine

open Sys2Proof

/-! ### What the wake of a doorbell write leaves (R448, R451) -/

/-- The parts of the state that a doorbell reads: the contexts, the stage, the processors and the shed stage. -/
def State.bellParts (s : State) : List (Option Context) × StartState × FwState × Nat := (s.ctxs, s.start, s.fw, s.pwr.shed)

theorem State.ctx_of_bellParts {s t : State} (h : t.bellParts = s.bellParts) (c : Nat) : t.ctx c = s.ctx c :=
  State.ctx_of_ctxs (congrArg Prod.fst h) c

theorem State.start_of_bellParts {s t : State} (h : t.bellParts = s.bellParts) : t.start = s.start :=
  congrArg (fun p => p.2.1) h

theorem State.served_of_bellParts {s t : State} (h : t.bellParts = s.bellParts) (x : Context) : t.served x = s.served x := by
  simp only [State.bellParts, Prod.mk.injEq] at h
  obtain ⟨-, -, hfw, hshed⟩ := h
  simp only [State.served, State.proc, hfw, hshed]

@[simp] theorem State.abortEntry_bellParts (s : State) (kind idx : Nat) : (s.abortEntry kind idx).bellParts = s.bellParts := rfl

@[simp] theorem State.askReg_bellParts (s : State) (r : Rail) (mv : Nat) : (s.askReg r mv).bellParts = s.bellParts := rfl

@[simp] theorem State.msix_bellParts (s : State) (v : Nat) : (s.msix v).bellParts = s.bellParts := rfl

@[simp] theorem State.holdEnable_bellParts (s : State) (f : HeldFunction) : (s.holdEnable f).bellParts = s.bellParts := by
  unfold State.holdEnable
  split <;> rfl

@[simp] theorem State.leave_bellParts (s : State) : s.leave.bellParts = s.bellParts := by
  unfold State.leave
  extract_lets
  split <;> rfl

@[simp] theorem State.driveCore_bellParts (s : State) : s.driveCore.bellParts = s.bellParts := by
  unfold State.driveCore
  extract_lets
  split <;> rfl

@[simp] theorem State.pwrNote_bellParts (old s : State) : (State.pwrNote old s).bellParts = s.bellParts := by
  unfold State.pwrNote
  extract_lets t _ u
  have noted : u.bellParts = t.bellParts := by
    unfold u
    split
    · rfl
    · split <;> rfl
  have driven : t.bellParts = s.bellParts := s.driveCore_bellParts
  split <;> simp [noted, driven]

@[simp] theorem State.wakeUp_bellParts (s : State) (idx : Nat) : (s.wakeUp idx).bellParts = s.bellParts := by
  unfold State.wakeUp
  split
  case h_1 | h_2 => split <;> simp
  case h_3 | h_4 => simp
  case h_5 => rfl

theorem State.doorbellWake_bellParts (s : State) : s.doorbellWake.bellParts = s.bellParts := by
  unfold State.doorbellWake State.wake State.pwrDo
  split
  · simp
  · split <;> simp

@[simp] theorem State.doorbellWake_ctx (s : State) (c : Nat) : s.doorbellWake.ctx c = s.ctx c :=
  State.ctx_of_bellParts s.doorbellWake_bellParts c

@[simp] theorem State.doorbellWake_start (s : State) : s.doorbellWake.start = s.start :=
  State.start_of_bellParts s.doorbellWake_bellParts

@[simp] theorem State.doorbellWake_served (s : State) (x : Context) : s.doorbellWake.served x = s.served x :=
  State.served_of_bellParts s.doorbellWake_bellParts x

/-! ### Which doorbell a write reaches (R197) -/

/-- What lies at place `r` of the doorbell page of context `c`. -/
theorem bellAt_page {c r : Nat} (hc : c < 64) (hr : r < 0x1000) : bellAt (0x10_0000 + c * 0x1000 + r) =
    if r = 0 then some (c, .tail) else if r = 8 then some (c, .head)
    else if 0x40 ≤ r ∧ r < 0x60 ∧ r % 4 = 0 then some (c, .grant ((r - 0x40) / 4)) else none := by
  have page : (0x10_0000 + c * 0x1000 + r - 0x10_0000) / 0x1000 = c := by omega
  have place : (0x10_0000 + c * 0x1000 + r - 0x10_0000) % 0x1000 = r := by omega
  have inside : ¬(0x10_0000 + c * 0x1000 + r < 0x10_0000 ∨ 64 ≤ c) := by omega
  simp only [bellAt, page, place, if_neg inside]

theorem bellAt_tail {c : Nat} (hc : c < 64) : bellAt (bellOffset c .tail) = some (c, .tail) :=
  bellAt_page hc (r := 0) (by decide)

theorem bellAt_head {c : Nat} (hc : c < 64) : bellAt (bellOffset c .head) = some (c, .head) :=
  bellAt_page hc (r := 8) (by decide)

theorem bellAt_grant {c k : Nat} (hc : c < 64) (hk : k < 8) : bellAt (bellOffset c (.grant k)) = some (c, .grant k) := by
  have word : 0x40 ≤ 0x40 + 4 * k ∧ 0x40 + 4 * k < 0x60 ∧ (0x40 + 4 * k) % 4 = 0 := by omega
  have number : (0x40 + 4 * k - 0x40) / 4 = k := by omega
  calc bellAt (bellOffset c (.grant k)) = bellAt (0x10_0000 + c * 0x1000 + (0x40 + 4 * k)) := by rw [← Nat.add_assoc]; rfl
    _ = some (c, .grant k) := by
      rw [bellAt_page hc (by omega), if_neg (by omega), if_neg (by omega), if_pos word, number]

/-- From Stage 1 on, a doorbell of a context that a running CSP serves acts on the woken device. -/
theorem State.doorbell_served {s : State} {c : Nat} {x : Context} (hx : s.ctx c = some x) (h1 : 1 ≤ s.start.stage)
    (hs : s.served x = true) (latch : Context → Context) (act : State → State) : s.doorbell c latch act = act s.doorbellWake := by
  simp [State.doorbell, hx, hs, Nat.ne_of_gt h1]

theorem exec_sqTail_served {s : State} {c : Fin 64} {x : Context} (hx : s.ctx c = some x) (h1 : 1 ≤ s.start.stage)
    (hs : s.served x = true) (v : W32) : exec (.sqTail c v) s = .next (s.doorbellWake.setTail c v) := by
  simp only [exec, execSqTail, State.pageWrite, bellAt_tail c.isLt, State.doorbell_served hx h1 hs]

theorem exec_cqHead_served {s : State} {c : Fin 64} {x : Context} (hx : s.ctx c = some x) (h1 : 1 ≤ s.start.stage)
    (hs : s.served x = true) (v : W32) : exec (.cqHead c v) s = .next (s.doorbellWake.setHead c v) := by
  simp only [exec, execCqHead, State.pageWrite, bellAt_head c.isLt, State.doorbell_served hx h1 hs]

theorem exec_streamGrant_started {s : State} (h1 : 1 ≤ s.start.stage) (c : Fin 64) (k : Fin 8) (v : W32) :
    exec (.streamGrant c k v) s = .next (s.doorbellWake.grantStream c k v) := by
  simp [exec, execStreamGrant, State.pageWrite, bellAt_grant c.isLt k.isLt, Nat.ne_of_gt h1]

/-! ### What a doorbell does to its context (R187, R199) -/

/-- A context with one more ignored doorbell write counted. -/
def Context.missed (x : Context) : Context := { x with dbErrs := BitVec.ofNat 16 (satAt 0xFFFF (x.dbErrs.toNat + 1)) }

theorem State.ctx_modCtx_writeCsb {s : State} {c : Nat} {x : Context} (hx : s.ctx c = some x) (f : Context → Context) :
    ((s.modCtx c f).writeCsb c).ctx c = some (f x) := by
  rw [State.ctx_of_ctxs (State.writeCsb_keep State.ctxs (fun _ _ _ _ _ _ _ => rfl) _ _), State.ctx_modCtx, hx, Option.map_some]

theorem State.setTail_ctx {s : State} {c : Nat} {x : Context} (hx : s.ctx c = some x) (v : W32) :
    (s.setTail c v).ctx c =
      if (v - x.sqHead).toNat < (x.sqTail - x.sqHead).toNat ∨ 2 ^ x.sqLog2 < (v - x.sqHead).toNat then some x.missed
      else some { x with sqTail := v } := by
  simp only [State.setTail, hx]
  split
  · exact State.ctx_modCtx_writeCsb hx _
  · rw [State.ctx_modCtx, hx, Option.map_some]

theorem State.setHead_ctx {s : State} {c : Nat} {x : Context} (hx : s.ctx c = some x) (v : W32) :
    (s.setHead c v).ctx c =
      if (x.cqTail - x.cqHead).toNat < (x.cqTail - v).toNat then some x.missed else some { x with cqHead := v } := by
  simp only [State.setHead, hx]
  split
  · exact State.ctx_modCtx_writeCsb hx _
  · rw [State.ctx_modCtx, hx, Option.map_some]

theorem State.askHost_ctxs (s : State) (o : Op) : (s.askHost o).ctxs = s.ctxs := by
  unfold State.askHost
  extract_lets
  split
  · rfl
  · exact State.foldl_field State.ctxs (fun t (p : Nat × Nat) => t.emit (.hostRead (BitVec.ofNat 64 p.1) p.2)) (fun _ _ => rfl) _ s

theorem State.askAll_ctxs (s : State) (c : Nat) : (s.askAll c).ctxs = s.ctxs :=
  State.foldl_field State.ctxs _ State.askHost_ctxs _ s

theorem State.grantStream_ctx {s : State} {c : Nat} {x : Context} (hx : s.ctx c = some x) (ha : x.status = .active) (k : Nat) (v : W32) :
    (s.grantStream c k v).ctx c = some { x with streams := x.streams.modify k (fun g => g.advance v) } := by
  unfold State.grantStream
  extract_lets t
  have moved : t.ctx c = some { x with streams := x.streams.modify k (fun g => g.advance v) } := by
    simp [t, State.ctx_modCtx, hx, ha]
  split
  · rw [State.ctx_of_ctxs (t.askAll_ctxs c), moved]
  · exact moved

/-- Settles O24: after the wake, which leaves the context, each doorbell acts by its own rule. -/
theorem doorbellsTakeEffect : Obligations.DoorbellsTakeEffect := by
  intro s c x v hx h1 hs
  have hw : s.doorbellWake.ctx c = some x := (s.doorbellWake_ctx c).trans hx
  refine ⟨fun hlo hhi => ?_, fun hbad => ?_, fun hle => ?_, fun hlt => ?_, fun k g ha hg => ?_⟩
  · exact ⟨_, _, exec_sqTail_served hx h1 hs v, (State.setTail_ctx hw v).trans (if_neg (by omega)), rfl, rfl⟩
  · exact ⟨_, _, exec_sqTail_served hx h1 hs v, (State.setTail_ctx hw v).trans (if_pos hbad), rfl, rfl⟩
  · exact ⟨_, _, exec_cqHead_served hx h1 hs v, (State.setHead_ctx hw v).trans (if_neg (by omega)), rfl, rfl⟩
  · exact ⟨_, _, exec_cqHead_served hx h1 hs v, (State.setHead_ctx hw v).trans (if_pos hlt), rfl, rfl⟩
  · exact ⟨_, _, exec_streamGrant_started h1 c k v, State.grantStream_ctx hw ha k v, by simp [hg, Stream.advance]⟩

end Sys2Proof.Machine
end

section
/-! SUPPORT. The contexts that a session manages through the mailbox (R264, R266, R473 to R479): the wake of a request leaves what the
request reads; a context that has ended stays ended, and its end ends it; each request on a context answers by its own rule. -/

namespace Sys2Proof.Machine

open Sys2Proof

/-! ### What a wake leaves (R451) -/

/-- The state with all cleared that a wake may change: the power state, the issue of the clusters, the counters, what leaves. -/
def State.besidesPower (s : State) : State := { s with pwr := State.reset.pwr, clusters := [], wide := [], out := [] }

@[simp] theorem State.abortEntry_besidesPower (s : State) (kind idx : Nat) :
    (s.abortEntry kind idx).besidesPower = s.besidesPower := by
  simp [State.abortEntry, State.refuse, State.holdIssue, State.besidesPower]

@[simp] theorem State.askReg_besidesPower (s : State) (r : Rail) (mv : Nat) : (s.askReg r mv).besidesPower = s.besidesPower := rfl

@[simp] theorem State.msix_besidesPower (s : State) (v : Nat) : (s.msix v).besidesPower = s.besidesPower := rfl

@[simp] theorem State.holdEnable_besidesPower (s : State) (f : HeldFunction) : (s.holdEnable f).besidesPower = s.besidesPower := by
  unfold State.holdEnable
  split <;> rfl

@[simp] theorem State.leave_besidesPower (s : State) : s.leave.besidesPower = s.besidesPower := by
  unfold State.leave
  extract_lets
  split <;> rfl

@[simp] theorem State.driveCore_besidesPower (s : State) : s.driveCore.besidesPower = s.besidesPower := by
  unfold State.driveCore
  extract_lets
  split <;> rfl

@[simp] theorem State.pwrNote_besidesPower (old s : State) : (State.pwrNote old s).besidesPower = s.besidesPower := by
  unfold State.pwrNote
  extract_lets t _ u
  have noted : u.besidesPower = t.besidesPower := by
    unfold u
    split
    · rfl
    · split <;> rfl
  have driven : t.besidesPower = s.besidesPower := s.driveCore_besidesPower
  split <;> simp [noted, driven]

@[simp] theorem State.wakeUp_besidesPower (s : State) (idx : Nat) : (s.wakeUp idx).besidesPower = s.besidesPower := by
  unfold State.wakeUp
  split
  case h_1 | h_2 => split <;> simp
  case h_3 | h_4 => simp
  case h_5 => rfl

theorem State.wake_besidesPower (s : State) (w : WakeSource) : (s.wake w).besidesPower = s.besidesPower := by
  unfold State.wake State.pwrDo
  split <;> simp

/-- A creation reads the cores and the contexts only (R478). -/
theorem State.createCtx_of_parts {s t : State} (hk : t.cores = s.cores) (hc : t.ctxs = s.ctxs) (r : Block) :
    t.createCtx r = s.createCtx r := by
  have core : t.hasCore = s.hasCore := funext fun n => by simp only [State.hasCore, State.core, hk]
  have count : t.ctxCount = s.ctxCount := funext fun n => by rw [State.ctxCount, hc, State.ctxCount]
  have free : t.slotFree = s.slotFree := funext fun k => by rw [State.slotFree, hc, State.slotFree]
  have place : t.ctx = s.ctx := by unfold State.ctx; rw [hc]
  simp only [State.createCtx, State.slotRun, core, count, free, place]

/-- What reads nothing that a wake may change reads the same after a wake. -/
theorem State.wake_keep {β : Type} (g : State → β) (hg : ∀ s, g s.besidesPower = g s) (s : State) (w : WakeSource) :
    g (s.wake w) = g s := by
  rw [← hg, State.wake_besidesPower, hg]

@[simp] theorem State.wake_mbx (s : State) (w : WakeSource) : (s.wake w).mbx = s.mbx := State.wake_keep State.mbx (fun _ => rfl) s w
@[simp] theorem State.wake_start (s : State) (w : WakeSource) : (s.wake w).start = s.start := State.wake_keep State.start (fun _ => rfl) s w
@[simp] theorem State.wake_ctxs (s : State) (w : WakeSource) : (s.wake w).ctxs = s.ctxs := State.wake_keep State.ctxs (fun _ => rfl) s w
@[simp] theorem State.wake_nowN (s : State) (w : WakeSource) : (s.wake w).nowN = s.nowN := State.wake_keep State.nowN (fun _ => rfl) s w
@[simp] theorem State.wake_ctx (s : State) (w : WakeSource) (c : Nat) : (s.wake w).ctx c = s.ctx c :=
  State.wake_keep (fun t => t.ctx c) (fun _ => rfl) s w
@[simp] theorem State.wake_hostCtx (s : State) (w : WakeSource) (c : Nat) : (s.wake w).hostCtx c = s.hostCtx c :=
  State.wake_keep (fun t => t.hostCtx c) (fun _ => rfl) s w
@[simp] theorem State.wake_ownCtx (s : State) (w : WakeSource) (c : Nat) : (s.wake w).ownCtx c = s.ownCtx c :=
  State.wake_keep (fun t => t.ownCtx c) (fun _ => rfl) s w
@[simp] theorem State.wake_whyNot (s : State) (w : WakeSource) (c : Nat) : (s.wake w).whyNot c = s.whyNot c :=
  State.wake_keep (fun t => t.whyNot c) (fun _ => rfl) s w
@[simp] theorem State.wake_newCtx (s : State) (w : WakeSource) (r : Block) (o : Owner) (b : Nat) :
    (s.wake w).newCtx r o b = s.newCtx r o b :=
  State.wake_keep (fun t => t.newCtx r o b) (fun _ => rfl) s w

@[simp] theorem State.wake_createCtx (s : State) (w : WakeSource) (r : Block) : (s.wake w).createCtx r = s.createCtx r :=
  State.createCtx_of_parts (State.wake_keep State.cores (fun _ => rfl) s w) (s.wake_ctxs w) r

theorem State.wake_bellParts (s : State) (w : WakeSource) : (s.wake w).bellParts = s.bellParts := by
  unfold State.wake State.pwrDo
  split <;> simp

@[simp] theorem State.wake_shed (s : State) (w : WakeSource) : (s.wake w).pwr.shed = s.pwr.shed :=
  congrArg (fun p => p.2.2.2) (s.wake_bellParts w)

@[simp] theorem State.wake_proc (s : State) (w : WakeSource) (i : Nat) : (s.wake w).proc i = s.proc i := by
  have hfw : (s.wake w).fw = s.fw := State.wake_keep State.fw (fun _ => rfl) s w
  simp only [State.proc, hfw, State.wake_shed]

/-! ### Requests and their answers (R472) -/

/-- A mailbox that is ready, with a session, hands every request on to its effect. -/
theorem State.request_taken {s : State} (hr : s.mailboxReady) (ho : s.mbx.opened = true) (code : Nat) (seq : W32) (early sess : Bool)
    (f : State → State) : s.request code seq early sess f = f (s.wake .pcie) := by
  obtain ⟨free, started, awake, runs⟩ := hr
  simp [State.request, free, ho, runs, Nat.ne_of_gt started, Nat.not_le.mpr awake]

@[simp] theorem State.respond_ctx (s : State) (code : Nat) (seq : W32) (st : Byte) (why : Nat) (l : List Byte) (c : Nat) :
    (s.respond code seq st why l).ctx c = s.ctx c := rfl

@[simp] theorem State.ok_ctx (s : State) (code : Nat) (seq : W32) (l : List Byte) (c : Nat) : (s.ok code seq l).ctx c = s.ctx c :=
  s.respond_ctx code seq stOk 0 l c

@[simp] theorem State.deny_ctx (s : State) (code : Nat) (seq : W32) (why c : Nat) : (s.deny code seq why).ctx c = s.ctx c :=
  s.respond_ctx code seq stNotPermitted why [] c

theorem State.ok_ended {s : State} {c : Nat} (code : Nat) (seq : W32) (l : List Byte) : (s.ok code seq l).ended c ↔ s.ended c := by
  simp only [State.ended, State.ok_ctx]

theorem State.respond_answered (s : State) (code : Nat) (seq : W32) (st : Byte) (why : Nat) (l : List Byte) :
    (s.respond code seq st why l).answered st why := ⟨rfl, rfl, rfl, rfl⟩

theorem State.ok_answered (s : State) (code : Nat) (seq : W32) (l : List Byte) : (s.ok code seq l).answered stOk 0 :=
  s.respond_answered code seq stOk 0 l

theorem State.deny_answered (s : State) (code : Nat) (seq : W32) (why : Nat) : (s.deny code seq why).answered stNotPermitted why :=
  s.respond_answered code seq stNotPermitted why []

/-! ### The place of a context in the table -/

theorem State.ctx_setCtx (s : State) (c : Nat) (o : Option Context) :
    (s.setCtx c o).ctx c = if c < s.ctxs.length then o else none := by
  simp only [State.ctx, unitAt, State.setCtx_ctxs, List.getElem?_set_self']
  by_cases h : c < s.ctxs.length <;> simp [h]

theorem State.putCsb_ctxs (s : State) (c : Nat) : (s.putCsb c).ctxs = s.ctxs :=
  State.putCsb_keep State.ctxs (fun _ _ _ _ _ _ _ => rfl) s c

theorem State.putCtx_ctx {s : State} {c : Nat} (hc : c < s.ctxs.length) (b : Nat) (r : Block) (owner : Owner) :
    (s.putCtx c b r owner).ctx c = some (s.newCtx r owner b) := by
  have placed : ((s.forgetCtx c).giveSlots c b (cSlots r)).ctxs = s.ctxs := rfl
  unfold State.putCtx
  rw [State.ctx_of_ctxs (State.putCsb_ctxs _ _), State.ctx_of_ctxs (State.perfClear_ctxs _ _ _),
    State.ctx_setCtx, placed, if_pos hc]

theorem State.destroyCtx_ctx (s : State) (c : Nat) : (s.destroyCtx c).ctx c = none := by
  unfold State.destroyCtx
  split
  · assumption
  · rw [State.ctx_setCtx, ite_self]

/-! ### The STATE of a context under the parts of an end (R232, R262) -/

/-- STATE of context `c`. -/
def State.statusOf (s : State) (c : Nat) : Option CtxStatus := (s.ctx c).map Context.status

theorem State.statusOf_of_ctxs {s t : State} (h : t.ctxs = s.ctxs) (c : Nat) : t.statusOf c = s.statusOf c := by
  rw [State.statusOf, State.ctx_of_ctxs h, State.statusOf]

/-- The end of a context is a fact about its STATE. -/
theorem State.ended_iff {s : State} {c : Nat} : s.ended c ↔ s.statusOf c ≠ some .active ∧ s.statusOf c ≠ some .frozen := by
  unfold State.ended State.statusOf
  cases s.ctx c <;> simp

theorem State.ended_of_statusOf {s t : State} {c : Nat} (h : t.statusOf c = s.statusOf c) : t.ended c ↔ s.ended c := by
  rw [State.ended_iff, State.ended_iff, h]

theorem State.ctx_modCtx_some {s : State} {c : Nat} {x : Context} (hx : s.ctx c = some x) (f : Context → Context) :
    (s.modCtx c f).ctx c = some (f x) := by
  rw [State.ctx_modCtx, hx, Option.map_some]

theorem State.ctx_modCtx_ne (s : State) {c d : Nat} (h : c ≠ d) (f : Context → Context) : (s.modCtx c f).ctx d = s.ctx d := by
  simp [State.ctx, unitAt, h]

/-- An update of a context that leaves its STATE leaves every STATE. -/
theorem State.modCtx_statusOf (s : State) (c d : Nat) {f : Context → Context} (hf : ∀ x, (f x).status = x.status) :
    (s.modCtx c f).statusOf d = s.statusOf d := by
  unfold State.statusOf
  by_cases h : c = d
  · subst h
    rw [State.ctx_modCtx, Option.map_map]
    exact congrArg (fun g => (s.ctx c).map g) (funext hf)
  · rw [State.ctx_modCtx_ne s h]

theorem State.storeHome_ctxs (s : State) (v : Via) (a : Nat) (bs : List Byte) (bad : List Nat) :
    (s.storeHome v a bs bad).ctxs = s.ctxs :=
  State.storeHome_keep State.ctxs (fun _ _ _ _ _ _ _ => rfl) s v a bs bad

theorem State.writeCsb_ctxs (s : State) (c : Nat) : (s.writeCsb c).ctxs = s.ctxs :=
  State.writeCsb_keep State.ctxs (fun _ _ _ _ _ _ _ => rfl) s c

theorem State.writeBackSector_ctxs (s : State) (w : Who) (l : CacheLine) (k : Nat) : (s.writeBackSector w l k).ctxs = s.ctxs := by
  have stored (a : Nat) (bs : List Byte) (bad : List Nat) (n : Nat) :
      ((s.storeHome (.cluster (w.cluster.getD 0)) a bs bad).perfAdd w 0x12 n).ctxs = s.ctxs :=
    s.storeHome_ctxs _ a bs bad
  unfold State.writeBackSector
  extract_lets
  split
  · exact stored _ _ _ _
  · split
    · exact stored _ _ _ _
    · split
      · exact stored _ _ _ _
      · rfl

theorem State.writeBackLine_ctxs (s : State) (w : Who) (l : CacheLine) : (s.writeBackLine w l).ctxs = s.ctxs := by
  rw [State.writeBackLine, State.writeBackSector_ctxs, State.writeBackSector_ctxs]

theorem State.flushLines_ctxs (s : State) (w : Who) (n : Nat) (inv : Bool) (p : CacheLine → Bool) :
    (s.flushLines w n inv p).ctxs = s.ctxs :=
  State.foldl_field State.ctxs _ (fun t l => t.writeBackLine_ctxs w l) _ s

theorem State.writeRecord_statusOf (s : State) (o : Op) (ext : Option (List Byte)) (d : Nat) :
    (s.writeRecord o ext).statusOf d = s.statusOf d := by
  unfold State.writeRecord
  split
  · rfl
  · extract_lets t u v
    have extended : t.ctxs = s.ctxs := by
      unfold t
      split
      · rw [State.storeHome_ctxs, State.storeHome_ctxs]
      · rfl
    have recorded : u.ctxs = s.ctxs := (State.storeHome_ctxs _ _ _ _ _).trans extended
    calc (v.writeCsb o.ctx).statusOf d = v.statusOf d := State.statusOf_of_ctxs (v.writeCsb_ctxs _) d
      _ = u.statusOf d := State.modCtx_statusOf u _ d (fun _ => rfl)
      _ = s.statusOf d := State.statusOf_of_ctxs recorded d

theorem State.freeEnded_ctxs (s : State) (c : Nat) : (s.freeEnded c).ctxs = s.ctxs :=
  State.freeEnded_keep State.ctxs (fun _ _ => rfl) s c

theorem State.endReleased_statusOf (s : State) (c d : Nat) : (s.endReleased c).statusOf d = s.statusOf d :=
  State.endReleased_keep (fun t => t.statusOf d) (fun _ _ => rfl) (fun t k _ => t.modCtx_statusOf k d (fun _ => rfl)) s c

theorem State.endNow_statusOf (s : State) (o : Op) (ext : Option (List Byte)) (open_ : Bool) (d : Nat) :
    (s.endNow o ext open_).statusOf d = s.statusOf d := by
  unfold State.endNow
  split
  · rfl
  · extract_lets t u v
    have opened : t.ctxs = s.ctxs := by
      unfold t
      split
      · exact State.foldl_field State.ctxs (fun (p : State) (r : Nat × Nat) => p.openRange r.1 r.2) (fun _ _ => rfl) _ s
      · rfl
    have recorded : u.statusOf d = s.statusOf d :=
      (State.writeRecord_statusOf _ o ext d).trans (State.statusOf_of_ctxs (t := t.dropOp o.ctx o.idx) opened d)
    have raised : v.statusOf d = u.statusOf d := by
      unfold v
      split <;> rfl
    rw [State.endReleased_statusOf, State.statusOf_of_ctxs (State.modCluster_ctxs _ _ _), State.countCommand,
      State.statusOf_of_ctxs (State.perfAdd_ctxs _ _ _ _), raised, recorded]

/-! ### An end ends the context, and no end begins one again -/

/-- A STATE in which a context no longer runs. -/
def CtxStatus.over (st : CtxStatus) : Prop := st ≠ .active ∧ st ≠ .frozen

/-- The end of a context that runs gives it its STATE, and leaves the others' (R232). -/
theorem State.endOne_statusOf {s : State} {c : Nat} {x : Context} (hx : s.ctx c = some x)
    (hr : ¬(x.status = .aborted ∨ x.status = .quarantined)) (code : Byte) (st : CtxStatus) (d : Nat) :
    (s.endOne c code st).statusOf d = if d = c then some st else s.statusOf d := by
  simp only [State.endOne, hx, if_neg hr]
  generalize hf : (clustersOf x).foldl (fun t n => t.flushLines (whoCluster n) n true (inRegions x)) (s.dropWork c) = f
  have flushed : f.ctxs = s.ctxs :=
    hf ▸ State.foldl_field State.ctxs _ (fun t n => t.flushLines_ctxs (whoCluster n) n true (inRegions x)) _ (s.dropWork c)
  rw [State.statusOf_of_ctxs (State.putCsb_ctxs _ c), State.statusOf_of_ctxs (State.freeEnded_ctxs _ c),
    State.modCtx_statusOf _ c d (by intro; rfl),
    State.foldl_field (fun t => t.statusOf d) (fun t o => t.endOp o code) (fun t o => t.endNow_statusOf (o.cut code) none true d)]
  by_cases h : d = c
  · subst h
    simp [State.statusOf, State.ctx_modCtx, State.ctx_of_ctxs flushed, hx]
  · rw [if_neg h, State.statusOf, State.ctx_modCtx_ne _ (Ne.symm h), State.ctx_of_ctxs flushed, State.statusOf]

theorem State.endOne_ended (s : State) (c : Nat) (code : Byte) {st : CtxStatus} (hst : st.over) : (s.endOne c code st).ended c := by
  cases hx : s.ctx c with
  | none => simp [State.endOne, State.ended, hx]
  | some x =>
    by_cases hr : x.status = .aborted ∨ x.status = .quarantined
    · rcases hr with hr | hr <;> simp [State.endOne, State.ended, hx, hr]
    · rw [State.ended_iff, State.endOne_statusOf hx hr, if_pos rfl]
      simpa [CtxStatus.over] using hst

theorem State.endOne_keeps_ended {s : State} {c : Nat} (he : s.ended c) (d : Nat) (code : Byte) {st : CtxStatus} (hst : st.over) :
    (s.endOne d code st).ended c := by
  by_cases h : c = d
  · exact h ▸ s.endOne_ended d code hst
  · cases hx : s.ctx d with
    | none => simpa [State.endOne, hx] using he
    | some x =>
      by_cases hr : x.status = .aborted ∨ x.status = .quarantined
      · simpa [State.endOne, hx, hr] using he
      · exact (State.ended_of_statusOf (by rw [State.endOne_statusOf hx hr, if_neg h])).mpr he

theorem CtxStatus.over_aborted : CtxStatus.over .aborted := ⟨by decide, by decide⟩

theorem State.watchN_keeps_ended (old : State) (c k : Nat) : ∀ {s : State}, s.ended c → (State.watchN old s k).ended c := by
  induction k with
  | zero => exact fun he => he
  | succ k ih =>
    intro s he
    unfold State.watchN
    extract_lets
    split
    · exact he
    · split
      · exact ih (State.endOne_keeps_ended he _ _ CtxStatus.over_aborted)
      · exact he

theorem State.abortCtx_ended (s : State) (c : Nat) : (s.abortCtx c).ended c := by
  unfold State.abortCtx
  split
  next x hx =>
    split
    · exact State.watchN_keeps_ended s c 64 (s.endOne_ended c _ CtxStatus.over_aborted)
    next hr =>
      rw [not_or] at hr
      simpa [State.ended, hx] using hr
  next hx => simp [State.ended, hx]

/-! ### The requests on contexts (R473 to R479) -/

theorem State.hostCtx_of_group {s : State} {c : Nat} {x : Context} (hx : s.ctx c = some x) (hg : x.owner = .group) :
    s.hostCtx c = false := by
  simp [State.hostCtx, hx, hg]

theorem State.ownCtx_of_group {s : State} {c : Nat} {x : Context} (hx : s.ctx c = some x) (hg : x.owner = .group) :
    s.ownCtx c = false := by
  simp [State.ownCtx, hx, hg]

theorem State.whyNot_of_ctx {s : State} {c : Nat} {x : Context} (hx : s.ctx c = some x) : s.whyNot c = reNotOwner := by
  simp [State.whyNot, hx]

/-- The waiting change that a REGION_SET asks for (R266, R479). -/
def State.regionChange (s : State) (seq : W32) (index : Byte) (e : BitVec 128) (timeout : W32) : RegionPending :=
  { index := index.toNat, region := regionOf e, seq := seq
    deadline := s.nowN + (if timeout = 0 then 100000000 else timeout.toNat) }

/-! What a ready mailbox with a session does with each request. -/

section Taken
variable {s : State} (hr : s.mailboxReady) (ho : s.mbx.opened = true)
include hr ho

theorem exec_ctxCreate_made {r : Block} {c b : Nat} (h2 : 2 ≤ s.start.stage) (hc : s.createCtx r = .inl (c, b)) (seq : W32) :
    exec (.ctxCreate seq r) s = .next (((s.wake .pcie).putCtx c b r (.host s.mbx.session)).ok rqCreate seq
      ([BitVec.ofNat 8 c] ++ bytesOf 2 b)) := by
  simp only [exec, execCtxCreate, State.doCreate, State.request_taken hr ho, State.wake_start, if_neg (Nat.not_lt.mpr h2),
    State.wake_createCtx, hc, State.wake_mbx]

theorem exec_ctxDestroy_taken (seq : W32) (c : Byte) :
    exec (.ctxDestroy seq c) s = .next (if s.hostCtx c.toNat then ((s.wake .pcie).destroyCtx c.toNat).ok rqDestroy seq []
      else (s.wake .pcie).deny rqDestroy seq (s.whyNot c.toNat)) := by
  simp only [exec, execCtxDestroy, State.doDestroy, State.request_taken hr ho, State.wake_hostCtx, State.wake_whyNot]

theorem exec_ctxAbort_taken (seq : W32) (c : Byte) :
    exec (.ctxAbort seq c) s = .next (if s.hostCtx c.toNat then ((s.wake .pcie).abortCtx c.toNat).ok rqAbort seq []
      else (s.wake .pcie).deny rqAbort seq (s.whyNot c.toNat)) := by
  simp only [exec, execCtxAbort, State.doAbort, State.request_taken hr ho, State.wake_hostCtx, State.wake_whyNot]

theorem exec_regionSet_denied {c : Byte} (hc : s.ownCtx c.toNat = false) (seq : W32) (index : Byte) (e : BitVec 128) (timeout : W32) :
    exec (.regionSet seq c index e timeout) s = .next ((s.wake .pcie).deny rqRegion seq (s.whyNot c.toNat)) := by
  simp only [exec, execRegionSet, State.doRegion, State.request_taken hr ho, State.wake_ownCtx, hc, State.wake_whyNot]

/-- A region entry that passes its checks is kept with its deadline until it is applied or withdrawn (R479). -/
theorem exec_regionSet_kept {c index : Byte} {e : BitVec 128} {x : Context} (hc : s.ownCtx c.toNat = true)
    (hx : s.ctx c.toNat = some x) (hi : index.toNat ≤ 63) (he : regionOk x (regionOf e) = true) (seq timeout : W32) :
    ∃ t, exec (.regionSet seq c index e timeout) s = .next t ∧
      t.ctx c.toNat = some { x with pending := some (s.regionChange seq index e timeout) } := by
  have good : ¬(63 < index.toNat ∨ (!regionOk x (regionOf e)) = true) := by simp [he, Nat.not_lt.mpr hi]
  simp only [exec, execRegionSet, State.doRegion, State.request_taken hr ho, State.wake_ownCtx, hc, State.wake_ctx, hx, if_neg good,
    State.wake_nowN]
  exact ⟨_, rfl, State.ctx_modCtx_some ((s.wake_ctx _ _).trans hx) _⟩

end Taken

theorem exec_regionApply_ready {s : State} {c : Fin 64} {x : Context} {p : RegionPending} (hx : s.ctx c = some x)
    (hp : x.pending = some p) (hd : (s.proc 2).runs = true) (hr : s.regionReady c x = true) :
    exec (.regionApply c) s = .next ((s.applyRegion c p).ok rqRegion p.seq []) := by
  simp [exec, execRegionApply, hx, hp, hd, hr]

theorem exec_regionSetTimeout_due {s : State} {c : Fin 64} {x : Context} {p : RegionPending} (hx : s.ctx c = some x)
    (hp : x.pending = some p) (hd : (s.proc 2).runs = true) (ht : p.deadline ≤ s.nowN) :
    exec (.regionSetTimeout c) s =
      .next ((s.modCtx c (fun x => { x with pending := none })).respond rqRegion p.seq stWaitTimeout 0 []) := by
  simp [exec, execRegionSetTimeout, hx, hp, hd, ht]

/-- Every request that names a context of the group is denied and leaves the context (R476). -/
theorem exec_groupCtx_denied {s : State} (hr : s.mailboxReady) (ho : s.mbx.opened = true) {c : Byte} {x : Context}
    (hx : s.ctx c.toNat = some x) (hg : x.owner = .group) (seq : W32) (index : Byte) (e : BitVec 128) (timeout : W32) :
    ∀ i ∈ [Instr.ctxDestroy seq c, .ctxAbort seq c, .regionSet seq c index e timeout],
      ∃ code, exec i s = .next ((s.wake .pcie).deny code seq reNotOwner) := by
  have hh := State.hostCtx_of_group hx hg
  have hw := State.whyNot_of_ctx hx
  simp only [List.forall_mem_cons]
  refine ⟨⟨rqDestroy, ?_⟩, ⟨rqAbort, ?_⟩, ⟨rqRegion, ?_⟩, List.forall_mem_nil _⟩
  · rw [exec_ctxDestroy_taken hr ho, hh, hw]; rfl
  · rw [exec_ctxAbort_taken hr ho, hh, hw]; rfl
  · rw [exec_regionSet_denied hr ho (State.ownCtx_of_group hx hg), hw]

/-- Settles O28: a ready mailbox takes each request, whose effect its own lemma gives; a kept region entry is applied or withdrawn. -/
theorem mailboxManagesContexts : Obligations.MailboxManagesContexts := by
  intro s seq
  refine ⟨fun hr ho => ⟨fun r c b h2 hc hlen => ?_, fun c index e timeout x hx hg i hi => ?_, fun c hh => ⟨?_, ?_⟩,
    fun c index e timeout x hown hx hi he => ?_⟩, fun c x p hx hp hd => ⟨fun hready => ?_, fun hdue => ?_⟩⟩
  · refine ⟨_, exec_ctxCreate_made hr ho h2 hc seq, State.ok_answered _ _ _ _, ?_⟩
    rw [State.ok_ctx, State.putCtx_ctx (by rwa [State.wake_ctxs]), State.wake_newCtx]
  · obtain ⟨code, hd⟩ := exec_groupCtx_denied hr ho hx hg seq index e timeout i hi
    exact ⟨_, hd, State.deny_answered _ _ _ _, by rw [State.deny_ctx, State.wake_ctx, hx]⟩
  · refine ⟨_, exec_ctxDestroy_taken hr ho seq c, ?_⟩
    rw [if_pos hh]
    exact ⟨State.ok_answered _ _ _ _, (State.ok_ctx _ _ _ _ _).trans (State.destroyCtx_ctx _ _)⟩
  · refine ⟨_, exec_ctxAbort_taken hr ho seq c, ?_⟩
    rw [if_pos hh]
    exact ⟨State.ok_answered _ _ _ _, (State.ok_ended _ _ _).mpr (State.abortCtx_ended _ _)⟩
  · obtain ⟨t, ht, hctx⟩ := exec_regionSet_kept hr ho hown hx hi he seq timeout
    exact ⟨t, _, _, ht, hctx, rfl, rfl, rfl, rfl, rfl⟩
  · exact ⟨_, _, exec_regionApply_ready hx hp hd hready, State.ok_answered _ _ _ _,
      (State.ok_ctx _ _ _ _ _).trans (State.ctx_modCtx_some hx _), rfl, rfl⟩
  · exact ⟨_, _, exec_regionSetTimeout_due hx hp hd hdue, State.respond_answered _ _ _ _ _ _,
      (State.respond_ctx _ _ _ _ _ _ _).trans (State.ctx_modCtx_some hx _), rfl, rfl⟩

end Sys2Proof.Machine
end

section
/-! SUPPORT. Reads of the register window (R556, R570), the sideband (R588) and the test access port (R589, R590): a permitted read
answers with the register's value and leaves memory as it was; a boundary-scan instruction is in effect at Stage 0 alone, and a start
that one holds stays where it is. -/

namespace Sys2Proof.Machine

open Sys2Proof

/-! ### The vote of a read leaves memory (R570) -/

@[simp] theorem State.logEntry_mem (s : State) (source severity : Byte) (trace : Nat) (args : List Nat) :
    (s.logEntry source severity trace args).mem = s.mem := by
  unfold State.logEntry
  extract_lets
  split
  · rfl
  · split <;> rfl

@[simp] theorem State.voteField_mem (s : State) (f : VotedField) : (s.voteField f).mem = s.mem := by
  unfold State.voteField
  extract_lets
  split
  · rfl
  · split
    · exact State.logEntry_mem _ _ _ _ _
    · rfl

@[simp] theorem State.voteAll_mem (s : State) (p : VotedField → Bool) : (s.voteAll p).mem = s.mem :=
  State.foldl_field State.mem (fun (t : State) f => t.voteField f) State.voteField_mem _ s

/-! ### Reads (R556, R588) -/

section Granted
variable {s : State} {o : Origin} {n : Nat} {i : RegInfo} (hi : regInfo n = some i) (hw : wideAt n = none)
  (hr : s.mayRead o n i = true) (hp : s.powered i.dom = true)
include hi hw hr hp

/-- A permitted read of a powered register, outside the wide mailboxes: its value, and its voted fields are voted. -/
theorem State.read32_granted : s.read32 o n = (s.regVal n, 0, s.voteAll (fun f => fieldOffset f == n)) := by
  simp [State.read32, hi, hw, hr, hp]

theorem State.regRead_granted (ha : n % 4 = 0) :
    s.regRead o n 4 = (s.voteAll (fun f => fieldOffset f == n)).emit (.regData (BitVec.ofNat 64 (s.regVal n % 2 ^ 32))) := by
  have whole : n / 4 * 4 = n := Nat.div_mul_cancel (Nat.dvd_of_mod_eq_zero ha)
  simp [State.regRead, ha, whole, State.read32_granted hi hw hr hp]

end Granted

theorem exec_registerRead_granted {s : State} {o : Origin} {off : BitVec 26} {i : RegInfo} (ha : off.toNat % 4 = 0)
    (hi : regInfo off.toNat = some i) (hw : wideAt off.toNat = none) (hr : s.mayRead o off.toNat i = true)
    (hp : s.powered i.dom = true) :
    exec (.registerRead o off 4) s = .next ((s.voteAll (fun f => fieldOffset f == off.toNat)).emit
      (.regData (BitVec.ofNat 64 (s.regVal off.toNat % 2 ^ 32)))) :=
  congrArg Host.Outcome.next (State.regRead_granted hi hw hr hp ha)

/-- The sideband's read has the status 0 of an access that passed before its value. -/
theorem exec_smbusRead_granted {s : State} {off : W32} {i : RegInfo} (ha : off.toNat % 4 = 0) (hi : regInfo off.toNat = some i)
    (hw : wideAt off.toNat = none) (hr : s.mayRead .sideband off.toNat i = true) (hp : s.powered i.dom = true) :
    exec (.smbusRead off true) s = .next ((s.voteAll (fun f => fieldOffset f == off.toNat)).emit
      (.smbusData 0 (BitVec.ofNat 32 (s.regVal off.toNat)))) := by
  simp [exec, execSmbusRead, ha, State.read32_granted hi hw hr hp]

theorem exec_smbusRead_badPec (s : State) (off : W32) : exec (.smbusRead off false) s = .next (s.emit .smbusNack) := rfl

theorem exec_smbusWrite_badPec (s : State) (off v : W32) : exec (.smbusWrite off v false) s = .next (s.emit .smbusNack) := rfl

/-- The Alert Response Address is answered in 7 bits: 0x58 and the three of SB_ADDR. -/
theorem exec_smbusAlertResponse_alerted {s : State} (h : s.sbAlert = true) :
    exec .smbusAlertResponse s = .next (s.emit (.alertAddr (0x58 + s.start.sbAddr.setWidth 7))) := by
  have seven : BitVec.ofNat 7 (0x58 + s.start.sbAddr.toNat) = 0x58 + s.start.sbAddr.setWidth 7 := by
    rw [BitVec.ofNat_add, BitVec.ofNat_toNat]
    rfl
  simp [exec, execSmbusAlertResponse, h, seven]

/-! ### The test access port (R589, R590) -/

/-- IDCODE, whatever the manufacturer's code is: the stepping digit 1, the part code 0x4C08, that code, and 1. -/
theorem idcodeWord_toNat : idcodeWord.toNat = 1 * 2 ^ 28 + 0x4C08 * 2 ^ 12 + 2 * (Config.jedecId % 2048) + 1 := by
  simp only [idcodeWord, fieldVal, BitVec.toNat_ofNat]
  omega

theorem exec_idcode (s : State) :
    exec .idcode s = .next (({ s with start := { s.start with bypass := false } } : State).emit (.jtag idcodeWord)) := rfl

/-- The three boundary-scan instructions are one to the start. -/
theorem exec_scan (s : State) : ∀ i ∈ [Instr.extest, .extestPulse, .extestTrain], exec i s = .next s.scan := by
  simp only [List.forall_mem_cons]
  exact ⟨rfl, rfl, rfl, List.forall_mem_nil _⟩

theorem State.scan_stage0 {s : State} (h : s.start.stage = 0) :
    s.scan = ({ s with start := { s.start with extest := true, bypass := false } } : State).emit .jtagScan := by
  simp [State.scan, State.mayScan, h]

theorem State.scan_later {s : State} (h : s.start.stage ≠ 0) :
    s.scan = ({ s with start := { s.start with bypass := true } } : State).emit .jtagBypass := by
  simp [State.scan, State.mayScan, h]

theorem State.mayStart_of_extest {s : State} (h : s.start.extest = true) : s.mayStart = false := by
  simp [State.mayStart, h]

theorem exec_stage1Reached_held {s : State} (h : s.mayStart = false) : exec .stage1Reached s = .next s := by
  simp [exec, execStage1Reached, h]

/-- Settles O39: each clause is the lemma of its instruction; a read's vote leaves memory, and EXTEST forbids the start. -/
theorem readsAndScansAnswer : Obligations.ReadsAndScansAnswer := by
  intro s
  refine ⟨fun o off i ha hi hw hr hp => ?_, fun off i ha hi hw hr hp => ?_,
    fun off v => ⟨exec_smbusRead_badPec s off, exec_smbusWrite_badPec s off v⟩, exec_smbusAlertResponse_alerted, ?_,
    fun i hi => ⟨fun h0 => ?_, fun hn => ?_⟩, fun h => exec_stage1Reached_held (State.mayStart_of_extest h), rfl⟩
  · exact ⟨_, _, exec_registerRead_granted ha hi hw hr hp, rfl, State.voteAll_mem _ _⟩
  · exact ⟨_, _, exec_smbusRead_granted ha hi hw hr hp, rfl, State.voteAll_mem _ _⟩
  · refine ⟨_, _, exec_idcode s, rfl, ?_⟩
    rw [idcodeWord_toNat]
    omega
  · exact ⟨_, (exec_scan s i hi).trans (congrArg _ (State.scan_stage0 h0)), rfl, rfl⟩
  · exact (exec_scan s i hi).trans (congrArg _ (State.scan_later hn))

end Sys2Proof.Machine
end

section
/-! SUPPORT. Steps and the reset state; register accesses that are granted or fail, and the wide mailboxes. -/

namespace Sys2Proof.Machine

open Sys2Proof

/-! ### Steps and reset -/

/-- Settles O1: by the definition of a step. -/
theorem stepRunsTheFrontCommand : Obligations.StepRunsTheFrontCommand := fun _ _ => rfl

theorem reset_sized : State.reset.sized :=
  ⟨rfl, rfl, rfl, rfl, rfl, rfl, rfl, rfl, rfl, rfl, rfl⟩

theorem reset_ctx (c : Nat) : State.reset.ctx c = none := by
  have h : State.reset.ctxs = List.replicate 64 none := rfl
  unfold State.ctx unitAt
  rw [h, List.getElem?_replicate]
  split <;> rfl

/-- Settles O31: by evaluation of the reset state. -/
theorem resetGivesTheStatedValues : Obligations.ResetGivesTheStatedValues := by
  unfold Obligations.ResetGivesTheStatedValues
  refine ⟨rfl, rfl, rfl, rfl, reset_ctx, rfl, rfl, ⟨reset_sized, rfl, rfl, rfl⟩, ?_, ?_⟩
  · decide
  · decide

/-! ### Register writes that are granted -/

section Granted
variable {s : State} {o : Origin} {off : Nat} {i : RegInfo} (hi : regInfo off = some i) (hw : s.mayWrite o off = true)
  (hp : s.powered i.dom = true)
include hi hw hp

theorem State.write32_granted (v : Nat) : s.write32 o off v = s.writeReg o off v i := by
  unfold State.write32
  rw [hi]
  simp [hw, hp]

theorem State.regWrite_granted (ha : off % 4 = 0) (v : W64) : s.regWrite o off 4 v = s.writeReg o off (v.toNat % 2 ^ 32) i := by
  unfold State.regWrite
  rw [if_pos ⟨rfl, ha⟩]
  exact State.write32_granted hi hw hp _

end Granted

/-! ### The wide mailboxes (R564 to R567) -/

/-- A wide mailbox's selection and control registers lie in the always-on domain. -/
theorem wide_regInfo (b : WideBlock) :
    regInfo (wideBase b + 0xF00) = some { dom := .aon, rw := 0xFFFF_FFFF, sh := 0, w1c := 0 } ∧
    regInfo (wideBase b + 0xF04) = some { dom := .aon, rw := 0, sh := 0, w1c := 0 } := by
  cases b with
  | hbm n => revert n; decide
  | link n => revert n; decide
  | _ => decide

theorem wide_wideAt (b : WideBlock) : wideAt (wideBase b + 0xF00) = some (wideBase b) ∧ wideAt (wideBase b + 0xF04) = some (wideBase b) := by
  cases b with
  | hbm n => revert n; decide
  | link n => revert n; decide
  | _ => decide

theorem State.writeReg_wide {off base : Nat} (h : wideAt off = some base) (s : State) (o : Origin) (v : Nat) (i : RegInfo) :
    s.writeReg o off v i = s.wideWrite o base (off - base) v := by
  unfold State.writeReg
  rw [h]

/-- A write of WIDE_CTL that its origin may make. -/
theorem exec_wideCtl {s : State} {o : Origin} {b : WideBlock} (hw : s.mayWrite o (wideBase b + 0xF04) = true) (v : Nat) :
    s.write32 o (wideBase b + 0xF04) v = s.wideWrite o (wideBase b) 0xF04 v := by
  rw [State.write32_granted (wide_regInfo b).2 hw rfl, State.writeReg_wide (wide_wideAt b).2, Nat.add_sub_cancel_left]

theorem State.bank_putBank {s : State} (h : sparseWf noBank 0 s.banks = true) (base k : Nat) (w : WideBank) :
    (s.putBank base k w).bank base k = w := by
  unfold State.bank State.putBank
  rw [sparseGet_put noBank s.banks _ w 0 h]
  exact if_pos rfl

theorem wide_address (b : WideBlock) :
    (BitVec.ofNat 32 (wideBase b + 0xF00)).toNat = wideBase b + 0xF00 ∧ (wideBase b + 0xF00) % 4 = 0 := by
  cases b with
  | hbm n => revert n; decide
  | link n => revert n; decide
  | _ => decide

theorem State.mayWrite_sideWide (s : State) (b : WideBlock) (h : sideWide (wideBase b) = true) :
    s.mayWrite .sideband (wideBase b + 0xF00) = true := by
  have hr : s.rightsOf .sideband = .sideband := rfl
  unfold State.mayWrite
  rw [hr]
  simp [(wide_wideAt b).1, h]

/-- A sideband write of WIDE_SEL. -/
theorem exec_sideSel (s : State) (b : WideBlock) (h : sideWide (wideBase b) = true) (v : W32) :
    exec (.smbusWrite (BitVec.ofNat 32 (wideBase b + 0xF00)) v true) s
      = .next (s.putBank (wideBase b) 2 { s.bank (wideBase b) 2 with sel := v }) := by
  obtain ⟨ha, h4⟩ := wide_address b
  have hsel : s.write32 .sideband (wideBase b + 0xF00) v.toNat = s.wideWrite .sideband (wideBase b) 0xF00 v.toNat := by
    rw [State.write32_granted (wide_regInfo b).1 (s.mayWrite_sideWide b h) rfl, State.writeReg_wide (wide_wideAt b).1, Nat.add_sub_cancel_left]
  have e : s.wideWrite .sideband (wideBase b) 0xF00 v.toNat = s.putBank (wideBase b) 2 { s.bank (wideBase b) 2 with sel := v } := by
    simp [State.wideWrite, originBank]
  show execSmbusWrite _ v true s = _
  unfold execSmbusWrite
  rw [ha, if_neg (by simp), if_neg (by simp [h4]), hsel, e]

/-- Settles O38: every write of a wide mailbox puts the origin's bank. -/
theorem wideMailboxCaptures : Obligations.WideMailboxCaptures := by
  unfold Obligations.WideMailboxCaptures
  intro s o b hshaped hw w
  obtain ⟨_, _, _, hbanks⟩ := hshaped
  have hsnap : exec (.wideSnap o b) s = .next (s.wideSnap o (wideBase b)) := congrArg Host.Outcome.next (exec_wideCtl hw 1)
  have hdone : exec (.wideDone o b) s = .next (s.wideDone o (wideBase b)) := congrArg Host.Outcome.next (exec_wideCtl hw 2)
  rw [hsnap, hdone]
  refine ⟨fun hv hc hp => ?_, fun hv hc => ?_, fun hv => ?_, fun hv => ?_, fun hside v => ?_⟩
  · refine ⟨_, rfl, ?_⟩
    have e : s.wideSnap o (wideBase b) = s.putBank (wideBase b) (originBank o)
        { w with valid := true, noSel := false, err := false, data := s.wideValue (wideBase b) w.sel.toNat } := by
      simp [State.wideSnap, w, hv, hc, hp]
    rw [e]
    exact ⟨State.bank_putBank hbanks _ _ _, rfl⟩
  · refine ⟨_, rfl, ?_⟩
    have e : s.wideSnap o (wideBase b) = s.putBank (wideBase b) (originBank o)
        { w with valid := true, noSel := true, err := false, data := [] } := by
      simp [State.wideSnap, w, hv, hc]
    rw [e]
    exact ⟨State.bank_putBank hbanks _ _ _, rfl⟩
  · refine ⟨_, rfl, ?_⟩
    have e : s.wideSnap o (wideBase b) = (s.putBank (wideBase b) (originBank o) { w with overrun := true }).modRegs
        (fun r => { r with topEvent := setBits r.topEvent 1 }) := by
      simp [State.wideSnap, w, hv]
    rw [e]
    exact ⟨State.bank_putBank hbanks _ _ _, rfl⟩
  · refine ⟨_, rfl, ?_⟩
    have e : s.wideDone o (wideBase b) = s.putBank (wideBase b) (originBank o)
        { w with valid := false, noSel := false, err := false, data := [] } := by
      simp [State.wideDone, w, hv]
    rw [e]
    exact ⟨State.bank_putBank hbanks _ _ _, rfl⟩
  · exact ⟨_, exec_sideSel s b hside v, State.bank_putBank hbanks _ _ _, rfl⟩

/-! ### Accesses that fail (R562) -/

theorem State.counter_count {s : State} (h : sparseWf 0 0 s.wide = true) (block sel n : Nat) :
    (s.count block sel n).counter block sel = satAt max64 (s.counter block sel + n) := by
  unfold State.counter State.count
  rw [sparseGet_put 0 s.wide _ _ 0 h]
  exact if_pos rfl

/-- What the record of a failed access is. -/
theorem State.accessError_failed {s : State} (h : s.shaped) (o : Origin) (cause off : Nat) :
    s.accessFailed (s.accessError o cause off) o cause off := by
  obtain ⟨_, hwide, _, _⟩ := h
  refine ⟨rfl, State.counter_count hwide _ _ _, ?_⟩
  simp [State.accessError, fieldVal, setBits]

section Failing
variable {s : State} {o : Origin} {off : Nat}

theorem State.regWrite_size {size : Nat} (h : ¬ ((size = 4 ∨ size = 8) ∧ off % size = 0)) (v : W64) :
    s.regWrite o off size v = s.accessError o aeSize off := by
  unfold State.regWrite
  have h4 : ¬ (size = 4 ∧ off % 4 = 0) := fun ⟨e, ha⟩ => h ⟨.inl e, by rw [e]; exact ha⟩
  have h8 : ¬ (size = 8 ∧ off % 8 = 0) := fun ⟨e, ha⟩ => h ⟨.inr e, by rw [e]; exact ha⟩
  rw [if_neg h4, if_neg h8]

theorem State.regWrite_word (ha : off % 4 = 0) (v : W64) : s.regWrite o off 4 v = s.write32 o off (v.toNat % 2 ^ 32) := by
  unfold State.regWrite
  rw [if_pos ⟨rfl, ha⟩]

theorem State.write32_reserved (hi : regInfo off = none) (v : Nat) : s.write32 o off v = s.accessError o aeReserved off := by
  unfold State.write32
  rw [hi]

theorem State.write32_denied {i : RegInfo} (hi : regInfo off = some i) (hw : s.mayWrite o off = false) (v : Nat) :
    s.write32 o off v = s.accessError o aeOrigin off := by
  unfold State.write32
  rw [hi]
  simp [hw]

theorem State.write32_off {i : RegInfo} (hi : regInfo off = some i) (hw : s.mayWrite o off = true) (hp : s.powered i.dom = false) (v : Nat) :
    s.write32 o off v = s.accessError o aeOff off := by
  unfold State.write32
  rw [hi]
  simp [hw, hp]

/-- A whole-word read that fails answers with a fixed value. -/
theorem State.regRead_of_read32 {v st : Nat} {t : State} (ha : off % 4 = 0) (h : s.read32 o off = (v, st, t)) :
    s.regRead o off 4 = t.emit (.regData (BitVec.ofNat 64 (v % 2 ^ 32))) := by
  have whole : off / 4 * 4 = off := Nat.div_mul_cancel (Nat.dvd_of_mod_eq_zero ha)
  simp [State.regRead, ha, whole, h]

theorem State.read32_reserved (hi : regInfo off = none) : s.read32 o off = (0, 3, s.accessError o aeReserved off) := by
  unfold State.read32
  rw [hi]

theorem State.read32_denied {i : RegInfo} (hi : regInfo off = some i) (hr : s.mayRead o off i = false) :
    s.read32 o off = (0, 1, s.accessError o aeOrigin off) := by
  unfold State.read32
  rw [hi]
  simp [hr]

theorem State.read32_off {i : RegInfo} (hi : regInfo off = some i) (hr : s.mayRead o off i = true) (hp : s.powered i.dom = false) :
    s.read32 o off = (0xFFFF_FFFF, 2, s.accessError o aeOff off) := by
  unfold State.read32
  rw [hi]
  simp [hr, hp]

end Failing

/-- TOP_RESET_CTL takes nothing without its key (R572). -/
theorem State.write32_keyless {s : State} {o : Origin} {key : Byte} (hkey : key ≠ 0x5A) (hw : s.mayWrite o 0x10 = true) {low : Nat}
    (hlow : low < 2 ^ 24) : s.write32 o 0x10 (fieldVal key.toNat 24 + low) = s.accessError o aeOrigin 0x10 := by
  have hi : regInfo 0x10 = some { dom := .aon, rw := 0x3FF, sh := 0, w1c := 0 } := by decide
  have hwide : wideAt 0x10 = none := by decide
  have hk : bitsOf (fieldVal key.toNat 24 + low) 31 24 ≠ 0x5A := by
    have hb : bitsOf (fieldVal key.toNat 24 + low) 31 24 = key.toNat := by
      unfold bitsOf fieldVal
      have := key.isLt
      omega
    rw [hb]
    exact fun h => hkey (BitVec.eq_of_toNat_eq h)
  rw [State.write32_granted hi hw rfl]
  unfold State.writeReg
  simp [hwide, hk]

/-- Settles O33: a failed access is an access error and nothing more. -/
theorem failedAccessesAreRecorded : Obligations.FailedAccessesAreRecorded := by
  unfold Obligations.FailedAccessesAreRecorded
  intro s o off hshaped
  have failed : ∀ cause n, s.accessFailed (s.accessError o cause n) o cause n := State.accessError_failed hshaped o
  refine ⟨fun size v h => ⟨_, congrArg Host.Outcome.next (State.regWrite_size h v), failed _ _⟩, fun ha => ⟨fun hi => ⟨fun v => ?_, ?_⟩, fun i hi => ?_⟩,
    fun key hkey hw => ⟨?_, ?_, fun clusters => ?_⟩⟩
  · exact ⟨_, congrArg Host.Outcome.next ((State.regWrite_word ha v).trans (State.write32_reserved hi _)), failed _ _⟩
  · exact ⟨_, congrArg Host.Outcome.next (State.regRead_of_read32 ha (State.read32_reserved hi)), failed _ _⟩
  · refine ⟨fun hw v => ?_, fun hr => ?_, fun hp => ⟨fun hw v => ?_, fun hr => ?_⟩⟩
    · exact ⟨_, congrArg Host.Outcome.next ((State.regWrite_word ha v).trans (State.write32_denied hi hw _)), failed _ _⟩
    · exact ⟨_, congrArg Host.Outcome.next (State.regRead_of_read32 ha (State.read32_denied hi hr)), failed _ _⟩
    · exact ⟨_, congrArg Host.Outcome.next ((State.regWrite_word ha v).trans (State.write32_off hi hw hp _)), failed _ _⟩
    · exact ⟨_, congrArg Host.Outcome.next (State.regRead_of_read32 ha (State.read32_off hi hr hp)), failed _ _⟩
  · exact ⟨_, congrArg Host.Outcome.next (State.write32_keyless hkey hw (by decide)), failed _ _⟩
  · exact ⟨_, congrArg Host.Outcome.next (State.write32_keyless hkey hw (by decide)), failed _ _⟩
  · exact ⟨_, congrArg Host.Outcome.next (State.write32_keyless hkey hw (by have := clusters.isLt; omega)), failed _ _⟩

end Sys2Proof.Machine
end
